-- ==== Sys2Proof/Word.lean ====
section
/-! DEFINITION. The words of the frame decoder: bytes, the 7-bit device address, the 15-bit transaction
descriptor, the 48-bit frame word, the six-byte frame, and a bus transaction. Every value is unsigned with bit 0 the
least significant (00_scope.md R9, R12). -/

namespace Sys2Proof

/-- One byte (10_state.md R21: "six registers of 8 bits each, unsigned"). -/
abbrev Byte := BitVec 8

/-- A 7-bit I2C device address (20_memory.md R42). -/
abbrev DevAddr := BitVec 7

/-- A transaction descriptor `TD[14:0] = {addr[6:0], byte[7:0]}` (30_encoding.md R68). -/
abbrev Descriptor := BitVec 15

/-- A frame word `F[47:0] = {f[0], f[1], f[2], f[3], f[4], f[5]}` (30_encoding.md R65). -/
abbrev FrameWord := BitVec 48

/-- An accelerometer value, ten bits (42_accelerometer.md R100). -/
abbrev Accel := BitVec 10

/-- The index of a byte of a frame, 0 to 5 (20_memory.md R41). -/
abbrev ByteIndex := Fin 6

/-- A frame: exactly six bytes, `b0` the first received (00_scope.md R19, 20_memory.md R44, R47). -/
structure Frame where
  b0 : Byte
  b1 : Byte
  b2 : Byte
  b3 : Byte
  b4 : Byte
  b5 : Byte
  deriving DecidableEq, Repr, Inhabited

/-- The ten fields of `FRAME48` (30_encoding.md R66), named as the spec names them. -/
structure FrameFields where
  jx  : BitVec 8
  jy  : BitVec 8
  axh : BitVec 8
  ayh : BitVec 8
  azh : BitVec 8
  azl : BitVec 2
  ayl : BitVec 2
  axl : BitVec 2
  bc  : BitVec 1
  bz  : BitVec 1
  deriving DecidableEq, Repr

/-- What one call hands to the Transport (20_memory.md R55, R56): a device address, the bytes written, and how many
bytes are read back after them. `readLen = 0` is `T.write`. -/
structure Transaction where
  addr    : DevAddr
  bytes   : List Byte
  readLen : Nat
  deriving DecidableEq, Repr

end Sys2Proof
end

