-- ==== Sys2Proof/Config.lean ====
section
/-! DEFINITION. What is fixed for the machine: the named parameters of 00_scope.md R5 and R7 with the source's values
as defaults (92_eei_decisions.md D15), and the one free value, the frame register file after a reset. The parameters are
an ARGUMENT of the model (R8): every definition that uses one takes a `Config`, down to `Machine.modelAt`; `config` is
where the machine of the fixed names stands (log entry 10). -/

namespace Sys2Proof

/-- `TIMEOUT_POLICY` (00_scope.md R5): the one policy the spec knows. Under `never` the block places no bound on how
long a Transport call takes and never abandons one (20_memory.md R57, 90_conflicts.md C1). -/
inductive TimeoutPolicy where
  | never
  deriving DecidableEq, Repr

/-- The constants of 00_scope.md R5 and R7, hardwired in the block (10_state.md R27): no operation changes them. -/
structure Config where
  devAddr       : DevAddr := 0x52
  handshakeByte : Byte := 0x40
  requestByte   : Byte := 0x00
  frameLen      : Nat := 6
  timeoutPolicy : TimeoutPolicy := .never
  joyXByte      : ByteIndex := 0
  joyYByte      : ByteIndex := 1
  accXHiByte    : ByteIndex := 2
  accYHiByte    : ByteIndex := 3
  accZHiByte    : ByteIndex := 4
  sharedByte    : ByteIndex := 5
  accHiShift    : Nat := 2
  accXLoMask    : Byte := 0b00001100
  accXLoShift   : Nat := 2
  accYLoMask    : Byte := 0b00110000
  accYLoShift   : Nat := 4
  accZLoMask    : Byte := 0b11000000
  accZLoShift   : Nat := 6
  btnZMask      : Byte := 0b00000001
  btnCMask      : Byte := 0b00000010
  deriving DecidableEq, Repr

/-- The argument at the source's values, the defaults (00_scope.md R5, R7). -/
def config : Config := {}

/-- The contents of `x[0..5]` after the n-th reset: "any six byte values. A model must not give them a value"
(10_state.md R33). A FREE VALUE: it has no body, so nothing can be proved of it. DESIGN CHOICE, log entry 1. -/
opaque Config.resetFrame : Nat → Frame

end Sys2Proof
end

