-- ==== Sys2Proof/Syntax.lean ====
section
/-! DEFINITION. The nine operations of the block (00_scope.md R6), one constructor per row of
spec/opcode_table.json. No operation has an operand (30_encoding.md R78). -/

namespace Sys2Proof

/-- An operation of the block, its counterpart of an instruction (00_scope.md R6, 30_encoding.md R74 (b)). -/
inductive Instr where
  /-- `INIT`, the source's `Construct(transport)` (40_sequencer.md R88). -/
  | init
  /-- `READ`, the source's `read()` (40_sequencer.md R89). -/
  | read
  /-- `JOY_X`, the source's `joystick_x` (41_joystick.md R96). -/
  | joyX
  /-- `JOY_Y`, the source's `joystick_y` (41_joystick.md R97). -/
  | joyY
  /-- `ACC_X`, the source's `accelerometer_x` (42_accelerometer.md R102). -/
  | accX
  /-- `ACC_Y`, the source's `accelerometer_y` (42_accelerometer.md R103). -/
  | accY
  /-- `ACC_Z`, the source's `accelerometer_z` (42_accelerometer.md R104). -/
  | accZ
  /-- `BTN_Z`, the source's `z_button` (43_buttons.md R111). -/
  | btnZ
  /-- `BTN_C`, the source's `c_button` (43_buttons.md R112). -/
  | btnC
  deriving DecidableEq, Repr

/-- The two sequencer operations are INIT and READ, the other seven are decode operations (00_scope.md R6). -/
def Instr.isDecode : Instr → Bool
  | .init => false
  | .read => false
  | .joyX => true
  | .joyY => true
  | .accX => true
  | .accY => true
  | .accZ => true
  | .btnZ => true
  | .btnC => true

end Sys2Proof
end

