-- ==== Sys2Proof/WellFormed.lean ====
section
/-! DEFINITION. Well-formedness. An operation has no operand that could be ill-formed (30_encoding.md R78), so every
`Instr` is well formed; what can be ill-formed is a bus transaction, and 30_encoding.md R77 says which the block emits. -/

namespace Sys2Proof

/-- Every operation is well formed: "no operation has an operand" (70_reset_and_hazards.md R150). -/
def Instr.wf : Instr → Bool
  | .init => true
  | .read => true
  | .joyX => true
  | .joyY => true
  | .accX => true
  | .accY => true
  | .accZ => true
  | .btnZ => true
  | .btnC => true

/-- The address check of 30_encoding.md R77: "never emits a device address other than 0x52",
the value of `c.devAddr`. -/
def Transaction.addrOk (c : Config) (t : Transaction) : Bool := t.addr == c.devAddr

/-- The handshake shape `BUS_W1`: exactly the handshake byte, nothing read (30_encoding.md R68, R77). -/
def Transaction.isHandshake (c : Config) (t : Transaction) : Bool :=
  t.addrOk c && t.bytes == [c.handshakeByte] && t.readLen == 0

/-- The frame fetch shape `BUS_W1R6`: exactly the request byte, then six bytes read (30_encoding.md R68, R77). -/
def Transaction.isFetch (c : Config) (t : Transaction) : Bool :=
  t.addrOk c && t.bytes == [c.requestByte] && t.readLen == c.frameLen

/-- A transaction the block may emit: one of the two shapes of 30_encoding.md R69, every bit fixed. -/
def Transaction.wf (c : Config) (t : Transaction) : Bool := t.isHandshake c || t.isFetch c

end Sys2Proof
end

