-- ==== Sys2Proof/Decode.lean ====
section
/-! DEFINITION. The encodings of the spec and their decoders: the frame word `FRAME48` with its ten fields
(30_encoding.md R65, R66), the transaction descriptors (R68, R69), the rows of the opcode table (R67, R74), the
mnemonics (R78), and after them the encoders. The block decodes no instruction words: a descriptor is what INIT and
READ EMIT, and no bit of a frame selects a decode operation (R74); see log entry 4. -/

namespace Sys2Proof

/-- What a row of the opcode table fixes about its operation (30_encoding.md R74). -/
inductive Encoding where
  /-- Format `BUS_W1`: the descriptor of a one-byte write (R68). -/
  | busW1 (td : Descriptor)
  /-- Format `BUS_W1R6`: the descriptor of a one-byte write and a six-byte read (R68). -/
  | busW1R6 (td : Descriptor)
  /-- Format `FRAME48`: any frame is the operand; the row is told by the bits it reads, since "which result is meant is
  a matter of which output is looked at" (R67, R74 (a)). -/
  | frame48 (readsMask : FrameWord)
  deriving DecidableEq, Repr

/-- Why a word or a row is no operation's; each is a name of its own. -/
inductive Reject where
  /-- Neither two bytes (a descriptor) nor six (a frame). -/
  | length
  /-- Bit 15 of the two bytes is set: a descriptor has 15 bits (R68). -/
  | notADescriptor
  /-- A device address other than 0x52 is "simply never produced" (R77). -/
  | addressNeverEmitted
  /-- A payload that is neither the handshake nor the request byte is never produced (R77). -/
  | payloadNeverEmitted
  /-- The descriptor of one shape under the format of the other (R69). -/
  | formatMismatch
  /-- A frame word: it is an operand of all seven decode operations and selects none of them (R74 (a)). -/
  | frameSelectsNoOperation
  /-- No decode operation reads exactly these bits of the frame (R67). -/
  | noSuchReadsMask
  deriving DecidableEq, Repr

/-- What a decoder answers. -/
inductive Decoded where
  | instr (i : Instr)
  | reject (r : Reject)
  deriving DecidableEq, Repr

/-- The operation read, if one was. -/
def Decoded.toOption : Decoded → Option Instr
  | .instr i => some i
  | .reject _ => none

/-! ### The frame word -/

/-- `f[i] = F[47-8i : 40-8i]`: byte 0 is the most significant byte of the word (30_encoding.md R65). -/
def Frame.ofWord (w : FrameWord) : Frame where
  b0 := w.extractLsb' 40 8
  b1 := w.extractLsb' 32 8
  b2 := w.extractLsb' 24 8
  b3 := w.extractLsb' 16 8
  b4 := w.extractLsb' 8 8
  b5 := w.extractLsb' 0 8

/-- `F[47:0] = {f[0], f[1], f[2], f[3], f[4], f[5]}` (30_encoding.md R65). -/
def Frame.toWord (f : Frame) : FrameWord := f.b0 ++ f.b1 ++ f.b2 ++ f.b3 ++ f.b4 ++ f.b5

/-- The ten fields by their frame word bits, the table of 30_encoding.md R66. -/
def FrameFields.ofWord (w : FrameWord) : FrameFields where
  jx  := w.extractLsb' 40 8
  jy  := w.extractLsb' 32 8
  axh := w.extractLsb' 24 8
  ayh := w.extractLsb' 16 8
  azh := w.extractLsb' 8 8
  azl := w.extractLsb' 6 2
  ayl := w.extractLsb' 4 2
  axl := w.extractLsb' 2 2
  bc  := w.extractLsb' 1 1
  bz  := w.extractLsb' 0 1

/-- The pattern string `JJJJJJJJKKKKKKKKAAAAAAAABBBBBBBBCCCCCCCCccbbaanz`, most significant first (30_encoding.md R66). -/
def FrameFields.toWord (g : FrameFields) : FrameWord :=
  g.jx ++ g.jy ++ g.axh ++ g.ayh ++ g.azh ++ g.azl ++ g.ayl ++ g.axl ++ g.bc ++ g.bz

/-! ### Descriptors and rows -/

/-- The operation whose transaction has this descriptor (30_encoding.md R69). At constants whose two payloads are equal
the two descriptors are one, and it reads as INIT. -/
def decodeDescriptor (c : Config) (td : Descriptor) : Decoded :=
  if td.extractLsb' 8 7 ≠ c.devAddr then .reject .addressNeverEmitted
  else if td.extractLsb' 0 8 = c.handshakeByte then .instr .init
  else if td.extractLsb' 0 8 = c.requestByte then .instr .read
  else .reject .payloadNeverEmitted

/-- The operation a row of the opcode table stands for; total, and every other row is rejected by name. -/
def decodeEncoding (c : Config) : Encoding → Decoded
  | .busW1 td =>
    match decodeDescriptor c td with
    | .instr .read => .reject .formatMismatch
    | d => d
  | .busW1R6 td =>
    match decodeDescriptor c td with
    | .instr .init => .reject .formatMismatch
    | d => d
  | .frame48 m =>
    if m = 0xFF0000000000 then .instr .joyX
    else if m = 0x00FF00000000 then .instr .joyY
    else if m = 0x0000FF00000C then .instr .accX
    else if m = 0x000000FF0030 then .instr .accY
    else if m = 0x00000000FFC0 then .instr .accZ
    else if m = 0x000000000001 then .instr .btnZ
    else if m = 0x000000000002 then .instr .btnC
    else .reject .noSuchReadsMask

/-- The decoder of a table word laid out in bytes, low byte first; total on any bytes. Two bytes are a descriptor, six
bytes a frame. The byte order of a descriptor is the model's (DESIGN CHOICE, log entry 4): the spec stores none. -/
def decode (c : Config) : List Byte → Decoded
  | [lo, hi] =>
    if hi.getLsbD 7 then .reject .notADescriptor else decodeDescriptor c ((hi ++ lo).setWidth 15)
  | [_, _, _, _, _, _] => .reject .frameSelectsNoOperation
  | _ => .reject .length

/-- The bytes of a table word of `n` bytes, low byte first. -/
def tableBytes : Nat → Nat → List Byte
  | 0, _ => []
  | n + 1, w => BitVec.ofNat 8 w :: tableBytes n (w / 256)

/-- The operation the decoder reads from a word numbered as spec/opcode_table.json numbers it: the 15-bit rows (INIT,
READ) take two bytes, the 48-bit rows six. A 48-bit word is a frame and selects no operation (30_encoding.md R74 (a):
the seven rows have match 0 and mask 0), so the answer there is `none`; see log entry 4. -/
def decodeTableWordAt (c : Config) (nbits w : Nat) : Option Instr :=
  if w < 2 ^ nbits then (decode c (tableBytes ((nbits + 7) / 8) w)).toOption else none

/-- The same at the source's constants. -/
def decodeTableWord (nbits w : Nat) : Option Instr := decodeTableWordAt config nbits w

/-! ### Mnemonics -/

/-- The spec's name of an operation (30_encoding.md R78). -/
def Instr.mnemonic : Instr → String
  | .init => "INIT"
  | .read => "READ"
  | .joyX => "JOY_X"
  | .joyY => "JOY_Y"
  | .accX => "ACC_X"
  | .accY => "ACC_Y"
  | .accZ => "ACC_Z"
  | .btnZ => "BTN_Z"
  | .btnC => "BTN_C"

/-- The operation a mnemonic names: the way a line of 30_encoding.md R79 selects one. -/
def Instr.ofMnemonic (m : String) : Option Instr :=
  if m = "INIT" then some .init
  else if m = "READ" then some .read
  else if m = "JOY_X" then some .joyX
  else if m = "JOY_Y" then some .joyY
  else if m = "ACC_X" then some .accX
  else if m = "ACC_Y" then some .accY
  else if m = "ACC_Z" then some .accZ
  else if m = "BTN_Z" then some .btnZ
  else if m = "BTN_C" then some .btnC
  else none

/-! ### Encoders -/

/-- `reads_mask` of the opcode table: the frame bits the operation's result depends on (30_encoding.md R67). -/
def Instr.readsMask : Instr → FrameWord
  | .init => 0
  | .read => 0
  | .joyX => 0xFF0000000000
  | .joyY => 0x00FF00000000
  | .accX => 0x0000FF00000C
  | .accY => 0x000000FF0030
  | .accZ => 0x00000000FFC0
  | .btnZ => 0x000000000001
  | .btnC => 0x000000000002

/-- The row of the opcode table for an operation: `TD = {0x52, 0x40}` for INIT, `{0x52, 0x00}` for READ
(30_encoding.md R69), the frame format and its reads mask for the rest (R67). -/
def encode (c : Config) : Instr → Encoding
  | .init => .busW1 (c.devAddr ++ c.handshakeByte)
  | .read => .busW1R6 (c.devAddr ++ c.requestByte)
  | .joyX => .frame48 (Instr.readsMask .joyX)
  | .joyY => .frame48 (Instr.readsMask .joyY)
  | .accX => .frame48 (Instr.readsMask .accX)
  | .accY => .frame48 (Instr.readsMask .accY)
  | .accZ => .frame48 (Instr.readsMask .accZ)
  | .btnZ => .frame48 (Instr.readsMask .btnZ)
  | .btnC => .frame48 (Instr.readsMask .btnC)

/-- A descriptor as two bytes, low byte first. -/
def descriptorBytes (td : Descriptor) : List Byte :=
  [td.extractLsb' 0 8, (td.extractLsb' 8 7).setWidth 8]

/-- The bytes of the word of an operation, for the two that have one (30_encoding.md R74). -/
def encodeBytes (c : Config) (i : Instr) : Option (List Byte) :=
  match encode c i with
  | .busW1 td => some (descriptorBytes td)
  | .busW1R6 td => some (descriptorBytes td)
  | .frame48 _ => none

/-- The format and descriptor of a transaction of one written byte and no byte, or a frame, read (30_encoding.md R68). -/
def Transaction.encoding (c : Config) (t : Transaction) : Option Encoding :=
  match t.bytes with
  | [b] =>
    if t.readLen = 0 then some (.busW1 (t.addr ++ b))
    else if t.readLen = c.frameLen then some (.busW1R6 (t.addr ++ b))
    else none
  | _ => none

end Sys2Proof
end

