-- ==== Sys2Proof/Machine/State.lean ====
section
/-! DEFINITION. The state of the block as plain data, what it exchanges with the Transport and with the host, the
reasons a step can stop, and the state after reset. The architectural state is exactly `x`, `RDY`, `FV`, `TE`
(10_state.md R20); `busy` is the hidden state of R29 (a), `bus` the list of transactions of 70_reset_and_hazards.md
R149, and the other fields are the model's own (log entries 1, 2, 3, 5). -/

namespace Sys2Proof.Machine

/-- A sequencer operation: one of the two that call the Transport (00_scope.md R6). -/
inductive SeqOp where
  | init
  | read
  deriving DecidableEq, Repr

/-- What the Transport answers to `T.write`: no data (20_memory.md R55). That it does not answer is no value here but an
answer that has not come (R57). -/
inductive WriteAnswer where
  | ok
  | err
  deriving DecidableEq, Repr

/-- What the Transport answers to `T.write_then_read`: exactly six bytes, each any value, or `Err` with no cause
(20_memory.md R56, 60_exceptions.md R115). -/
inductive ReadAnswer where
  | ok (b : Frame)
  | err
  deriving DecidableEq, Repr

/-- A call made to the Transport and its answer, `none` while it is unanswered (20_memory.md R55, R56). -/
inductive Call where
  | write (tx : Transaction) (answer : Option WriteAnswer)
  | writeThenRead (tx : Transaction) (answer : Option ReadAnswer)
  deriving DecidableEq, Repr

/-- What the host does to the block (70_reset_and_hazards.md R150). -/
inductive HostEvent where
  /-- Issues an operation. -/
  | issue (i : Instr)
  /-- Applies the reset event `RESET` (70_reset_and_hazards.md R135). -/
  | reset
  deriving DecidableEq, Repr

/-- What an operation hands back to the host when it ends (00_scope.md R18, 70_reset_and_hazards.md R150). -/
inductive Result where
  /-- The outcome `Ok` of INIT or READ. -/
  | ok
  /-- The outcome `TransportError` of the operation named: nothing else accompanies it (60_exceptions.md R115). -/
  | transportError (op : SeqOp)
  /-- An 8-bit joystick value. -/
  | joystick (v : Byte)
  /-- A 10-bit accelerometer value. -/
  | accel (v : Accel)
  /-- A button, true = pressed (00_scope.md R16). -/
  | button (pressed : Bool)
  deriving DecidableEq, Repr

/-- The seven combinational outputs of the frame register file (10_state.md R28); a Boolean on one wire is 1 for true
(00_scope.md R16). -/
structure Outputs where
  joyX : Byte
  joyY : Byte
  accX : Accel
  accY : Accel
  accZ : Accel
  btnZ : BitVec 1
  btnC : BitVec 1
  deriving DecidableEq, Repr

/-- The state of the block and of its two partners as the block meets them. -/
structure State where
  /-- The frame register file `x[0..5]` (10_state.md R21). -/
  x   : Frame
  /-- `RDY`, ready (10_state.md R23). -/
  rdy : Bool
  /-- `FV`, frame valid (10_state.md R24). -/
  fv  : Bool
  /-- `TE`, transport error (10_state.md R25). -/
  te  : Bool
  /-- The sequencer operation that waits for the Transport, if one does (10_state.md R29 (a)). -/
  busy : Option SeqOp
  /-- The bus transactions made since RESET, the newest FIRST, each with its answer (70_reset_and_hazards.md R149). -/
  bus : List Call
  /-- What the last ended operation handed to the host (70_reset_and_hazards.md R150); the model's own. -/
  result : Option Result
  /-- The events the host has presented, the next first (70_reset_and_hazards.md R149); the model's own. -/
  host : List HostEvent
  /-- The Transport's answers to the calls of `T.write` to come, the next first (20_memory.md R54); the model's own. -/
  writeAnswers : List WriteAnswer
  /-- The Transport's answers to the calls of `T.write_then_read` to come (20_memory.md R54); the model's own. -/
  readAnswers : List ReadAnswer
  /-- How many RESET events came after the first: the index of the free reset frame (10_state.md R33); the model's own. -/
  resets : Nat
  deriving DecidableEq, Repr

/-- The one stop that is no refusal: a stuck state. -/
inductive Fault where
  /-- Raised by the step when the operation named waits for the Transport, no answer has come and the host does nothing:
  "the operation has no step until the Transport answers; not a final state" (93_implementation_defined.md U6,
  70_reset_and_hazards.md R144). Safe: the spec gives this situation no successor. -/
  | awaitingTransport (op : SeqOp)
  deriving DecidableEq, Repr

/-- What the block is not defined for (60_exceptions.md R117): a refused operation changes no state and causes no bus
transaction, and a refused run has no end state the spec vouches for (70_reset_and_hazards.md R149). -/
inductive Refusal where
  /-- The row's own name for an operation without a meaning; no arm of this model uses it. Safe: the run stops. -/
  | notModelled (mnemonic : String)
  /-- Raised by INIT when `RDY = 1` (40_sequencer.md R85). Safe: errs toward unprovable. -/
  | initWhenReady
  /-- Raised by READ when `RDY = 0` (40_sequencer.md R86). Safe: errs toward unprovable. -/
  | readBeforeInit
  /-- Raised by a decode operation when `FV = 0` (41_joystick.md R95). Safe: errs toward unprovable. -/
  | noFrame
  /-- Raised by an operation issued while INIT or READ has not ended (60_exceptions.md R117, 70_reset_and_hazards.md
  R144; for a decode operation log entry 8). Where another refusal fits as well, this is the name answered: DESIGN
  CHOICE, log entry 16. Safe: errs toward unprovable. -/
  | busy
  /-- Raised by RESET while INIT or READ has not ended (70_reset_and_hazards.md R135). Safe: errs toward unprovable. -/
  | resetWhileBusy
  deriving DecidableEq, Repr

/-- The block right after RESET: flags clear (10_state.md R30, R31, R32), `x` unspecified (R33), idle and with no bus
transaction made (70_reset_and_hazards.md R135, R136). -/
def State.reset : State where
  x := Config.resetFrame 0
  rdy := false
  fv := false
  te := false
  busy := none
  bus := []
  result := none
  host := []
  writeAnswers := []
  readAnswers := []
  resets := 0

end Sys2Proof.Machine
end

