-- ==== Sys2Proof/Machine/Operands.lean ====
section
/-! DEFINITION. Operand forms: reading a byte of a frame, and the assembly of accelerometer, button and joystick values
from frame bytes (30_encoding.md R70 to R73), and the values as a wider consumer sees them. -/

namespace Sys2Proof.Machine

/-- `f[i]`, byte i of a frame value (00_scope.md R10, R17). -/
def frameByte (f : Frame) (i : ByteIndex) : Byte :=
  match i with
  | 0 => f.b0
  | 1 => f.b1
  | 2 => f.b2
  | 3 => f.b3
  | 4 => f.b4
  | 5 => f.b5

/-- The frame of six bytes given by index (00_scope.md R17). -/
def frameOfBytes (b : ByteIndex → Byte) : Frame := ⟨b 0, b 1, b 2, b 3, b 4, b 5⟩

/-- `zext_N(v)` (00_scope.md R13). -/
def zext (n : Nat) {w : Nat} (v : BitVec w) : BitVec n := v.setWidth n

/-- `(s & MASK) >> SHIFT`: the mask before the shift, the shift logical (30_encoding.md R70, 00_scope.md R14). -/
def lowGroup (s mask : Byte) (shift : Nat) : Byte := (s &&& mask) >>> shift

/-- `acc = (zext_10(hi8) << 2) | zext_10(lo)`, shifted at ten bits so that none is lost (30_encoding.md R71). -/
def assembleAccel (c : Config) (hi lo : Byte) : Accel := (zext 10 hi <<< c.accHiShift) ||| zext 10 lo

/-- The one function behind the three axes, at a setting (high byte, mask, shift) (42_accelerometer.md R105). -/
def decAxis (c : Config) (hiByte : ByteIndex) (mask : Byte) (shift : Nat) (f : Frame) : Accel :=
  assembleAccel c (frameByte f hiByte) (lowGroup (frameByte f c.sharedByte) mask shift)

/-- `btn = ((f[5] & MASK) == 0)`: true is pressed (30_encoding.md R72, 43_buttons.md R110). -/
def decButton (c : Config) (mask : Byte) (f : Frame) : Bool := (frameByte f c.sharedByte &&& mask) == 0

/-- A Boolean on one wire: 1 for true, 0 for false (00_scope.md R16). -/
def boolWire (b : Bool) : BitVec 1 := BitVec.ofBool b

/-- The value a result carries as a number: every widening is a zero extension (00_scope.md R13). -/
def Result.value : Result → Option Nat
  | .ok => none
  | .transportError _ => none
  | .joystick v => some v.toNat
  | .accel v => some v.toNat
  | .button b => some (boolWire b).toNat

end Sys2Proof.Machine
end

