-- ==== Sys2Proof/Machine/Flags.lean ====
section
/-! DEFINITION. The three status flags and the status word (10_state.md R23 to R26). There is no other flag, and no
control register. -/

namespace Sys2Proof.Machine

/-- `STATUS[0] = RDY`, `STATUS[1] = FV`, `STATUS[2] = TE` (10_state.md R26). -/
def State.status (s : State) : BitVec 3 := boolWire s.te ++ boolWire s.fv ++ boolWire s.rdy

/-- `TE` holds the outcome of the INIT or READ that ended: 0 for `Ok`, 1 for `TransportError` (10_state.md R25). -/
def State.setTe (v : Bool) (s : State) : State := { s with te := v }

/-- `RDY <- 1`, by an INIT that ended `Ok`; no operation clears it (10_state.md R23). -/
def State.setReady (s : State) : State := { s with rdy := true }

/-- `x <- b; FV <- 1`, by a READ that ended `Ok`: all six bytes in one indivisible step (10_state.md R21, R24,
20_memory.md R50). -/
def State.holdFrame (b : Frame) (s : State) : State := { s with x := b, fv := true }

end Sys2Proof.Machine
end

