-- ==== Sys2Proof/Machine/Ops.lean ====
section
/-! DEFINITION. The shared operations: calling the Transport, ending a call, taking a TransportError, sampling a decoded
value, the reset event, and one advance of the machine. -/

namespace Sys2Proof.Machine

/-! ### The two calls of the Transport -/

/-- What the block hands to the Transport: `T.write(DEV_ADDR, [HANDSHAKE_BYTE])` for INIT (20_memory.md R55) and
`T.write_then_read(DEV_ADDR, [REQUEST_BYTE], FRAME_LEN)` for READ (R56), "with no other arguments ever". -/
def SeqOp.transaction (c : Config) : SeqOp → Transaction
  | .init => ⟨c.devAddr, [c.handshakeByte], 0⟩
  | .read => ⟨c.devAddr, [c.requestByte], c.frameLen⟩

/-- The operation of the enumeration that a sequencer operation is. -/
def SeqOp.instr : SeqOp → Instr
  | .init => .init
  | .read => .read

/-- The sequencer operation an operation is; the decode operations are none (20_memory.md R59: they "cause no
transaction"). -/
def seqOpOf : Instr → Option SeqOp
  | .init => some .init
  | .read => some .read
  | .joyX => none
  | .joyY => none
  | .accX => none
  | .accY => none
  | .accZ => none
  | .btnZ => none
  | .btnC => none

/-- The call of an operation while it has no answer. -/
def SeqOp.openCall (c : Config) : SeqOp → Call
  | .init => .write (SeqOp.transaction c .init) none
  | .read => .writeThenRead (SeqOp.transaction c .read) none

/-- What was put on the bus by a call, whatever it was answered. -/
def Call.transaction : Call → Transaction
  | .write tx _ => tx
  | .writeThenRead tx _ => tx

/-- The bus trace: the transactions made since RESET in the order they were made (70_reset_and_hazards.md R149). -/
def State.trace (s : State) : List Transaction := (s.bus.map Call.transaction).reverse

/-- The one Transport call of a sequencer operation goes out, and the block is busy until it is answered
(60_exceptions.md R119, 10_state.md R29 (a)). "The attempt is the transaction" (40_sequencer.md R88). -/
def State.startCall (c : Config) (op : SeqOp) (s : State) : State :=
  { s with busy := some op, bus := op.openCall c :: s.bus }

/-- The unanswered call at the head of the list gets its answer. -/
def State.recordAnswer (call : Call) (s : State) : State := { s with bus := call :: s.bus.tail }

/-- The operation in progress ends `Ok`: the block is idle, `TE <- 0` (40_sequencer.md R88, R89). -/
def State.endOk (s : State) : State := { s.setTe false with busy := none, result := some .ok }

/-- TAKING THE EXCEPTION `TransportError` (60_exceptions.md R120): `TE <- 1`; nothing else of the block is written; the
operation ends and the host sees the outcome; the block is idle again. No control transfer, no saved cause (R121), and
so no return from it: "nothing was entered" (R122). -/
def State.raiseTransportError (op : SeqOp) (s : State) : State :=
  { s.setTe true with busy := none, result := some (.transportError op) }

/-- The end of INIT on an answer (40_sequencer.md R88). -/
def State.commitInit (c : Config) (a : WriteAnswer) (s : State) : State :=
  match a with
  | .ok => (s.recordAnswer (.write (SeqOp.transaction c .init) (some .ok))).setReady.endOk
  | .err => (s.recordAnswer (.write (SeqOp.transaction c .init) (some .err))).raiseTransportError .init

/-- The end of READ on an answer (40_sequencer.md R89); on `Err` the variant of 92_eei_decisions.md D8: `x` and `FV`
unchanged (log entry 9). -/
def State.commitRead (c : Config) (a : ReadAnswer) (s : State) : State :=
  match a with
  | .ok b => ((s.recordAnswer (.writeThenRead (SeqOp.transaction c .read) (some (.ok b)))).holdFrame b).endOk
  | .err => (s.recordAnswer (.writeThenRead (SeqOp.transaction c .read) (some .err))).raiseTransportError .read

/-- The operation in progress takes the Transport's next answer and ends, if there is one in progress and an answer has
come; otherwise there is no such step (70_reset_and_hazards.md R144). -/
def State.settle (c : Config) (s : State) : Option State :=
  match s.busy with
  | none => none
  | some .init =>
    match s.writeAnswers with
    | [] => none
    | a :: rest => some (State.commitInit c a { s with writeAnswers := rest })
  | some .read =>
    match s.readAnswers with
    | [] => none
    | a :: rest => some (State.commitRead c a { s with readAnswers := rest })

/-- A sequencer operation, admitted: it makes its call, and where the answer is there it ends in the same indivisible
step (20_memory.md R58); where it is not, the block stays busy (70_reset_and_hazards.md R144). -/
def State.callTransport (c : Config) (op : SeqOp) (s : State) : State :=
  ((s.startCall c op).settle c).getD (s.startCall c op)

/-! ### Admission -/

/-- A sequencer operation with its admission test on `RDY`, which comes before and instead of any bus
activity (60_exceptions.md R119): `need` is the value of `RDY` it is defined for, `why` the refusal otherwise. INIT issued while a
READ waits, and READ issued while an INIT waits, fit two refusals of R117 at once, and the spec does not say which name
wins: that the answer is `busy` and not `why` is the model's choice (DESIGN CHOICE, log entry 16). -/
def State.sequence (c : Config) (op : SeqOp) (need : Bool) (why : Refusal) (s : State) :
    Host.Outcome State Fault Refusal :=
  if s.busy.isSome then .refused .busy
  else if s.rdy = need then .next (s.callTransport c op)
  else .refused why

/-- A decode operation: the function of the held frame is handed to the host, and nothing of the block changes; without
a frame it is refused (41_joystick.md R95). While INIT or READ has not ended the answer is `busy` (log entry 8), also
where there is no frame (DESIGN CHOICE, log entry 16). -/
def State.sample (dec : Frame → Result) (s : State) : Host.Outcome State Fault Refusal :=
  if s.busy.isSome then .refused .busy
  else if s.fv then .next { s with result := some (dec s.x) }
  else .refused .noFrame

/-! ### Reset and the host -/

/-- The reset event on an idle block (70_reset_and_hazards.md R135, R136): flags clear, `x` unspecified, no bus
transaction, and the Transport not reset. The list of transactions since RESET starts again (R149). -/
def State.applyReset (s : State) : State :=
  { s with x := Config.resetFrame (s.resets + 1), rdy := false, fv := false, te := false, busy := none, bus := [],
           result := none, resets := s.resets + 1 }

/-- `RESET` as the host applies it: not defined while an operation has not ended (70_reset_and_hazards.md R135). -/
def State.hostReset (s : State) : Host.Outcome State Fault Refusal :=
  if s.busy.isSome then .refused .resetWhileBusy else .next s.applyReset

/-- What becomes of an operation whose answer does not come: under the policy `never` it is not abandoned, and there is
no step (20_memory.md R57, 70_reset_and_hazards.md R144). -/
def awaitAnswer (c : Config) (op : SeqOp) : Host.Outcome State Fault Refusal :=
  match c.timeoutPolicy with
  | .never => .fault (.awaitingTransport op)

/-- One advance of the machine, `run` being the meaning of an operation. An operation in progress whose answer has come
ends; else the host's next event is taken; with no event an idle block stays as it is (70_reset_and_hazards.md R135,
R149) and a busy one is stuck (R144). -/
def State.advance (c : Config) (run : Instr → State → Host.Outcome State Fault Refusal) (s : State) :
    Host.Outcome State Fault Refusal :=
  match s.settle c with
  | some t => .next t
  | none =>
    match s.host with
    | .issue i :: rest => run i { s with host := rest }
    | .reset :: rest => State.hostReset { s with host := rest }
    | [] =>
      match s.busy with
      | some op => awaitAnswer c op
      | none => .next s

/-- The host presents an operation as its very next event. -/
def State.present (i : Instr) (s : State) : State := { s with host := .issue i :: s.host }

/-- The host presents the operation a table word stands for; a word that selects none presents nothing (log entry 4). -/
def State.presentWord (nbits w : Nat) (s : State) : State :=
  match decodeTableWord nbits w with
  | some i => s.present i
  | none => s

end Sys2Proof.Machine
end

