-- ==== Sys2Proof/Machine/Accelerometer.lean ====
section
/-! DEFINITION. ACC_X, ACC_Y and ACC_Z, the 10-bit accelerometer reconstruction (42_accelerometer.md R102 to R104), one
function at three settings (R105). -/

namespace Sys2Proof.Machine

/-- `dec_acc_x(f) = (zext_10(f[2]) << 2) | zext_10((f[5] & 0b00001100) >> 2)` (42_accelerometer.md R102). -/
def decAccX (c : Config) (f : Frame) : Accel := decAxis c c.accXHiByte c.accXLoMask c.accXLoShift f

/-- `dec_acc_y(f) = (zext_10(f[3]) << 2) | zext_10((f[5] & 0b00110000) >> 4)` (42_accelerometer.md R103). -/
def decAccY (c : Config) (f : Frame) : Accel := decAxis c c.accYHiByte c.accYLoMask c.accYLoShift f

/-- `dec_acc_z(f) = (zext_10(f[4]) << 2) | zext_10((f[5] & 0b11000000) >> 6)` (42_accelerometer.md R104). -/
def decAccZ (c : Config) (f : Frame) : Accel := decAxis c c.accZHiByte c.accZLoMask c.accZLoShift f

/-- `ACC_X` (42_accelerometer.md R102). -/
def State.accXAt (c : Config) (s : State) : Host.Outcome State Fault Refusal :=
  s.sample (fun f => .accel (decAccX c f))

/-- `ACC_X` at the source's constants. -/
def execAccX (s : State) : Host.Outcome State Fault Refusal := s.accXAt config

/-- `ACC_Y` (42_accelerometer.md R103). -/
def State.accYAt (c : Config) (s : State) : Host.Outcome State Fault Refusal :=
  s.sample (fun f => .accel (decAccY c f))

/-- `ACC_Y` at the source's constants. -/
def execAccY (s : State) : Host.Outcome State Fault Refusal := s.accYAt config

/-- `ACC_Z` (42_accelerometer.md R104). -/
def State.accZAt (c : Config) (s : State) : Host.Outcome State Fault Refusal :=
  s.sample (fun f => .accel (decAccZ c f))

/-- `ACC_Z` at the source's constants. -/
def execAccZ (s : State) : Host.Outcome State Fault Refusal := s.accZAt config

end Sys2Proof.Machine
end

