-- ==== Sys2Proof/Machine/Buttons.lean ====
section
/-! DEFINITION. BTN_Z and BTN_C, the Boolean buttons (43_buttons.md R111, R112): active low on the wire, true = pressed
(R110, 90_conflicts.md C4). -/

namespace Sys2Proof.Machine

/-- `dec_btn_z(f) = ((f[5] & 0b00000001) == 0)` (43_buttons.md R111). -/
def decBtnZ (c : Config) (f : Frame) : Bool := decButton c c.btnZMask f

/-- `dec_btn_c(f) = ((f[5] & 0b00000010) == 0)` (43_buttons.md R112). -/
def decBtnC (c : Config) (f : Frame) : Bool := decButton c c.btnCMask f

/-- `BTN_Z` (43_buttons.md R111). -/
def State.btnZAt (c : Config) (s : State) : Host.Outcome State Fault Refusal :=
  s.sample (fun f => .button (decBtnZ c f))

/-- `BTN_Z` at the source's constants. -/
def execBtnZ (s : State) : Host.Outcome State Fault Refusal := s.btnZAt config

/-- `BTN_C` (43_buttons.md R112). -/
def State.btnCAt (c : Config) (s : State) : Host.Outcome State Fault Refusal :=
  s.sample (fun f => .button (decBtnC c f))

/-- `BTN_C` at the source's constants. -/
def execBtnC (s : State) : Host.Outcome State Fault Refusal := s.btnCAt config

end Sys2Proof.Machine
end

