-- ==== Sys2Proof/Machine/Joystick.lean ====
section
/-! DEFINITION. JOY_X and JOY_Y, the 8-bit joystick passthrough (41_joystick.md R96, R97). -/

namespace Sys2Proof.Machine

/-- `dec_joy_x(f) = f[0]` (41_joystick.md R96). -/
def decJoyX (c : Config) (f : Frame) : Byte := frameByte f c.joyXByte

/-- `dec_joy_y(f) = f[1]` (41_joystick.md R97). -/
def decJoyY (c : Config) (f : Frame) : Byte := frameByte f c.joyYByte

/-- `JOY_X` (41_joystick.md R96). -/
def State.joyXAt (c : Config) (s : State) : Host.Outcome State Fault Refusal :=
  s.sample (fun f => .joystick (decJoyX c f))

/-- `JOY_X` at the source's constants. -/
def execJoyX (s : State) : Host.Outcome State Fault Refusal := s.joyXAt config

/-- `JOY_Y` (41_joystick.md R97). -/
def State.joyYAt (c : Config) (s : State) : Host.Outcome State Fault Refusal :=
  s.sample (fun f => .joystick (decJoyY c f))

/-- `JOY_Y` at the source's constants. -/
def execJoyY (s : State) : Host.Outcome State Fault Refusal := s.joyYAt config

end Sys2Proof.Machine
end

