-- ==== Sys2Proof/Machine/Outputs.lean ====
section
/-! DEFINITION. The seven combinational outputs of the frame register file (10_state.md R28), and the decode function of
each operation on a frame value (41_joystick.md R95). -/

namespace Sys2Proof.Machine

/-- All seven decoded values of one frame (10_state.md R28, 20_memory.md R50). -/
def decodeAll (c : Config) (f : Frame) : Outputs where
  joyX := decJoyX c f
  joyY := decJoyY c f
  accX := decAccX c f
  accY := decAccY c f
  accZ := decAccZ c f
  btnZ := boolWire (decBtnZ c f)
  btnC := boolWire (decBtnC c f)

/-- What the outputs show: functions of `x` alone, never stored (10_state.md R28). With `FV = 0` the values are
unspecified (41_joystick.md R95), and the model has none (DESIGN CHOICE, log entry 15). While a READ waits they keep showing the held frame
(92_eei_decisions.md D10). -/
def State.outputs (c : Config) (s : State) : Option Outputs := if s.fv then some (decodeAll c s.x) else none

/-- The result of a decode operation on a frame value: pure and total (41_joystick.md R95); none for INIT and READ. -/
def decodeResult (c : Config) : Instr → Frame → Option Result
  | .init, _ => none
  | .read, _ => none
  | .joyX, f => some (.joystick (decJoyX c f))
  | .joyY, f => some (.joystick (decJoyY c f))
  | .accX, f => some (.accel (decAccX c f))
  | .accY, f => some (.accel (decAccY c f))
  | .accZ, f => some (.accel (decAccZ c f))
  | .btnZ, f => some (.button (decBtnZ c f))
  | .btnC, f => some (.button (decBtnC c f))

end Sys2Proof.Machine
end

