-- ==== Sys2Proof/Machine/Sequencer.lean ====
section
/-! DEFINITION. The sequencer operations INIT and READ (40_sequencer.md R88, R89). -/

namespace Sys2Proof.Machine

/-- `INIT` (40_sequencer.md R88): admitted when `RDY = 0`, else `refuse(InitWhenReady)` (R85). -/
def State.initAt (c : Config) (s : State) : Host.Outcome State Fault Refusal := s.sequence c .init false .initWhenReady

/-- `INIT` at the source's constants. -/
def execInit (s : State) : Host.Outcome State Fault Refusal := s.initAt config

/-- `READ` (40_sequencer.md R89): admitted when `RDY = 1`, else `refuse(ReadBeforeInit)` (R86). -/
def State.readAt (c : Config) (s : State) : Host.Outcome State Fault Refusal := s.sequence c .read true .readBeforeInit

/-- `READ` at the source's constants. -/
def execRead (s : State) : Host.Outcome State Fault Refusal := s.readAt config

end Sys2Proof.Machine
end

