-- ==== Sys2Proof/Machine/Model.lean ====
section
/-! DEFINITION. The model with the constants of 00_scope.md R5 and R7 kept open as its argument (R8,
92_eei_decisions.md D15): the meaning of every operation, the step and the machine at any `Config`. -/

namespace Sys2Proof.Machine

/-- The meaning of an operation at the constants `c`. -/
def execAt (c : Config) (i : Instr) (s : State) : Host.Outcome State Fault Refusal :=
  match i with
  | .init => s.initAt c
  | .read => s.readAt c
  | .joyX => s.joyXAt c
  | .joyY => s.joyYAt c
  | .accX => s.accXAt c
  | .accY => s.accYAt c
  | .accZ => s.accZAt c
  | .btnZ => s.btnZAt c
  | .btnC => s.btnCAt c

/-- One step at the constants `c`. -/
def stepAt (c : Config) (s : State) : Host.Outcome State Fault Refusal := s.advance c (execAt c)

/-- The machine at the constants `c`: what a claim about an accessory with other constants is stated of (D15). -/
def modelAt (c : Config) : Host.Core where
  State := State
  Fault := Fault
  Refusal := Refusal
  step := stepAt c
  reset := State.reset

end Sys2Proof.Machine
end

