-- ==== Sys2Proof/Machine/Dispatch.lean ====
section
/-! DEFINITION. One arm per operation (00_scope.md R6), each at the source's constants. -/

namespace Sys2Proof.Machine

def exec (i : Instr) (s : State) : Host.Outcome State Fault Refusal :=
  match i with
  | .init => Sys2Proof.Machine.execInit s
  | .read => Sys2Proof.Machine.execRead s
  | .joyX => Sys2Proof.Machine.execJoyX s
  | .joyY => Sys2Proof.Machine.execJoyY s
  | .accX => Sys2Proof.Machine.execAccX s
  | .accY => Sys2Proof.Machine.execAccY s
  | .accZ => Sys2Proof.Machine.execAccZ s
  | .btnZ => Sys2Proof.Machine.execBtnZ s
  | .btnC => Sys2Proof.Machine.execBtnC s

end Sys2Proof.Machine
end

