-- ==== Sys2Proof/Machine/Step.lean ====
section
/-! DEFINITION. One step of the machine, and an operation placed where the step takes its next one. -/

namespace Sys2Proof.Machine

/-- One step, at the source's constants: the operation in progress ends on its answer, or the host's next event is taken
(`State.advance`). -/
def step (s : State) : Host.Outcome State Fault Refusal := s.advance config exec

/-- The state with the operation of a table word as the host's next event: the block fetches nothing (10_state.md R22),
the host issues each operation (log entries 2, 4). -/
def State.withFetchWord (s : State) (nbits w : Nat) : State := s.presentWord nbits w

end Sys2Proof.Machine
end

