-- ==== Sys2Proof/Safety.lean ====
section
/-! DEFINITION. What counts as a safe run, in the terms statements use: what the bus transactions made since RESET say
about the block, the order of operations the spec allows, the invariant that ties the state to them, the end of a run,
and the fairness premise about the Transport. -/

namespace Sys2Proof.Machine

/-- Some INIT ended `Ok` (10_state.md R23): read from the transactions since RESET, newest first. -/
def initEndedOk : List Call → Bool
  | [] => false
  | .write _ (some .ok) :: _ => true
  | _ :: rest => initEndedOk rest

/-- The frame of the most recent READ that ended `Ok`, if there is one (10_state.md R21, R24, 20_memory.md R60). -/
def lastGoodFrame : List Call → Option Frame
  | [] => none
  | .writeThenRead _ (some (.ok b)) :: _ => some b
  | _ :: rest => lastGoodFrame rest

/-- Whether the most recent INIT or READ that ended did so with `TransportError` (10_state.md R25). -/
def lastEndedInError : List Call → Bool
  | [] => false
  | .write _ (some .ok) :: _ => false
  | .write _ (some .err) :: _ => true
  | .write _ none :: rest => lastEndedInError rest
  | .writeThenRead _ (some (.ok _)) :: _ => false
  | .writeThenRead _ (some .err) :: _ => true
  | .writeThenRead _ none :: rest => lastEndedInError rest

/-- The operation whose call is the newest and unanswered (20_memory.md R58: at most one is in progress). -/
def openOperation : List Call → Option SeqOp
  | .write _ none :: _ => some .init
  | .writeThenRead _ none :: _ => some .read
  | _ => none

/-- The sequencer operations and their endings in the order of the grammar
`( INIT<-Err )* INIT<-Ok ( READ<-Err | READ<-Ok )*` (40_sequencer.md R87), newest first, each with exactly its own
transaction (20_memory.md R59), and only the newest unanswered (R58). -/
def legalBus (c : Config) : List Call → Bool
  | [] => true
  | .write tx _ :: rest =>
    tx == SeqOp.transaction c .init && !initEndedOk rest && (openOperation rest).isNone && legalBus c rest
  | .writeThenRead tx _ :: rest =>
    tx == SeqOp.transaction c .read && initEndedOk rest && (openOperation rest).isNone && legalBus c rest

/-- The invariant, at the constants `c`: the transactions since RESET are in the spec's order, and the state of the block
is what they say. It ties `RDY`, `FV`, `TE`, `x` and the busy condition to the history of calls and their answers. -/
structure HistoryInv (c : Config) (s : State) : Prop where
  legal : legalBus c s.bus = true
  rdy   : s.rdy = initEndedOk s.bus
  fv    : s.fv = (lastGoodFrame s.bus).isSome
  x     : ∀ f, lastGoodFrame s.bus = some f → s.x = f
  te    : s.te = lastEndedInError s.bus
  busy  : s.busy = openOperation s.bus

/-- The end of a finite run: the last operation has ended and the host issues no more (70_reset_and_hazards.md R149). -/
def State.finished (s : State) : Prop := s.busy = none ∧ s.host = []

/-- No answer to the operation's call has come (70_reset_and_hazards.md R144). -/
def State.unanswered (s : State) : SeqOp → Prop
  | .init => s.writeAnswers = []
  | .read => s.readAnswers = []

/-- The fairness premise of 92_eei_decisions.md D18, for the next call: the Transport answers it. It is a premise about
the Transport, never a property of the block. -/
def State.transportAnswers (s : State) (op : SeqOp) : Prop := ¬ s.unanswered op

/-- The operation is admitted: the block is idle, and `RDY = 0` for INIT, `RDY = 1` for READ (40_sequencer.md R85,
R86). -/
def State.admits (s : State) : SeqOp → Prop
  | .init => s.busy = none ∧ s.rdy = false
  | .read => s.busy = none ∧ s.rdy = true

/-- The two states differ at most in the contents of the frame register file. -/
def sameButFrame (s t : State) : Prop := t = { s with x := t.x }

/-- Two outcomes that differ at most in a frame register file that holds no frame (10_state.md R33): where `FV = 1` the
states are equal, where `FV = 0` they are equal but for `x`; a fault or a refusal is the same one. -/
def agreeButUnheldFrame : Host.Outcome State Fault Refusal → Host.Outcome State Fault Refusal → Prop
  | .next s, .next t => sameButFrame s t ∧ (s.fv = true → s = t)
  | .fault a, .fault b => a = b
  | .refused a, .refused b => a = b
  | _, _ => False

/-- The two states differ at most in the list of transactions. -/
def sameButBus (s t : State) : Prop := t = { s with bus := t.bus }

/-- Two outcomes that differ at most in the list of transactions; a fault or a refusal is the same one. -/
def agreeButBus : Host.Outcome State Fault Refusal → Host.Outcome State Fault Refusal → Prop
  | .next s, .next t => sameButBus s t
  | .fault a, .fault b => a = b
  | .refused a, .refused b => a = b
  | _, _ => False

/-- What a decode operation does on an idle block: with a frame it hands over the function `dec` of the held frame and
changes nothing else, without one it is refused (41_joystick.md R95). -/
def HandsOver (i : Instr) (dec : Frame → Result) : Prop :=
  ∀ s : State, s.busy = none →
    (s.fv = true → exec i s = .next { s with result := some (dec s.x) }) ∧
    (s.fv = false → exec i s = .refused .noFrame)

end Sys2Proof.Machine
end

