-- ==== Sys2Proof/Certificates/Slice0/Obligations.lean ====
section
/-! DEFINITION. The statements for the provers. Each docstring names the rule of spec/ it formalises; where a statement
rests on a decision of the spec, on an inference the spec marks as its own, or on a choice of the model, it says so. -/

open Sys2Proof Sys2Proof.Machine

/-! ### Reset, the host and the step -/

/-- 10_state.md R30, R31, R32 (the spec's decision D9) and 70_reset_and_hazards.md R135, R136: after reset the flags are
clear, the block is idle and no transaction has been made. -/
def Obligations.ResetClearsFlags : Prop :=
  State.reset.rdy = false ∧ State.reset.fv = false ∧ State.reset.te = false ∧ State.reset.status = 0#3 ∧
  State.reset.busy = none ∧ State.reset.trace = []

/-- 70_reset_and_hazards.md R135, R136 (decision D9): RESET on an idle block clears the flags, empties the list of
transactions since RESET (the reading of log entry 6), calls nobody, and keeps the host's further events and the
Transport's answers (the reading of log entry 14). The queue of host events is the model's choice (log entry 2). -/
def Obligations.ResetEventOnIdleBlock : Prop :=
  ∀ (s : State) (rest : List HostEvent), s.busy = none → s.host = .reset :: rest →
    ∃ t : State, step s = .next t ∧ t.rdy = false ∧ t.fv = false ∧ t.te = false ∧ t.busy = none ∧ t.trace = [] ∧
      t.host = rest ∧ t.writeAnswers = s.writeAnswers ∧ t.readAnswers = s.readAnswers

/-- 70_reset_and_hazards.md R135 and 93_implementation_defined.md U9: RESET while INIT or READ has not ended is refused.
That an answer which has come is taken first is the model's order, log entry 2. -/
def Obligations.ResetDuringOperationIsRefused : Prop :=
  ∀ (s : State) (op : SeqOp) (rest : List HostEvent),
    s.busy = some op → s.unanswered op → s.host = .reset :: rest → step s = .refused .resetWhileBusy

/-- 20_memory.md R58 and 70_reset_and_hazards.md R149: the step of an idle block runs exactly the operation the host has
issued; the queue of host events is the model's (log entry 2). -/
def Obligations.StepRunsIssuedOperation : Prop :=
  ∀ (s : State) (i : Instr) (rest : List HostEvent),
    s.busy = none → s.host = .issue i :: rest → step s = exec i { s with host := rest }

/-- The step runs the decoded operation: a table word that the decoder reads as `i`, placed on an idle block, makes the
next step run exactly `i` (log entry 4 for what a table word is here). The queue it is placed in is the model's too (log
entry 2). -/
def Obligations.StepRunsDecodedWord : Prop :=
  ∀ (s : State) (nbits w : Nat) (i : Instr),
    s.busy = none → decodeTableWord nbits w = some i → step (s.withFetchWord nbits w) = exec i s

/-- When the last operation has ended and the host issues no more, a step answers the same state. The spec says that the
block is then idle and what the end state is (70_reset_and_hazards.md R149, decision D26); that the step of such a block
is the identity, and no stop, is the model's choice (DESIGN CHOICE, log entry 11). -/
def Obligations.FinishedBlockStays : Prop :=
  ∀ s : State, s.finished → step s = .next s

/-- 70_reset_and_hazards.md R144 and 93_implementation_defined.md U6: the step is a fault exactly when an operation
waits, its answer has not come and the host does nothing, and the fault names that operation. The spec calls this a
stuck agent with no enabled step; that it is told by a fault, and an idle block by a next state, is the model's choice
(DESIGN CHOICE, log entry 11). The queues of events and of answers are log entries 2 and 3. -/
def Obligations.StuckExactlyWhenAwaiting : Prop :=
  ∀ (s : State) (f : Fault),
    step s = .fault f ↔ ∃ op, f = .awaitingTransport op ∧ s.busy = some op ∧ s.unanswered op ∧ s.host = []

/-- 70_reset_and_hazards.md R144: an INIT or READ that gets no answer makes its one transaction and leaves `x`, RDY, FV
and TE as they were; after it no operation is admitted, RESET is refused, and a host that waits waits for ever. That the
name of the refusal is Busy for every operation is the model's (log entries 8 and 16), that the stuck step is a fault
too (log entry 11). The spec gives a call without an answer no successor state (R144, T16 of 95_test_vectors.md): that
it answers a next state with the block busy and the transaction unanswered is the model's choice (DESIGN CHOICE, log
entry 3). -/
def Obligations.UnansweredOperationIsStuck : Prop :=
  ∀ (s : State) (op : SeqOp), s.admits op → s.unanswered op →
    ∃ t : State, exec op.instr s = .next t ∧ t = { s with busy := some op, bus := t.bus } ∧
      t.trace = s.trace ++ [op.transaction config] ∧ (∀ i, exec i t = .refused .busy) ∧
      t.hostReset = .refused .resetWhileBusy ∧ (s.host = [] → step t = .fault (.awaitingTransport op))

/-- Under the fairness premise of 92_eei_decisions.md D18, which is attributed to the Transport: where it answers the call,
an admitted operation has ended in one step (20_memory.md R58), and an operation in progress ends in the very next step
whatever the host has presented. D18 says only that the operation ends; that an operation whose answer comes late ends in
a step of its own is the model's choice (DESIGN CHOICE, log entry 3), and so is that an answer which has come is taken
before the host's next event (DESIGN CHOICE, log entry 2). -/
def Obligations.AnsweredOperationEnds : Prop :=
  (∀ (s : State) (op : SeqOp), s.admits op → s.transportAnswers op →
    ∃ t : State, exec op.instr s = .next t ∧ t.busy = none ∧
      (t.result = some .ok ∨ t.result = some (.transportError op))) ∧
  (∀ (s : State) (op : SeqOp), s.busy = some op → s.transportAnswers op →
    ∃ t : State, step s = .next t ∧ t.busy = none ∧ (t.result = some .ok ∨ t.result = some (.transportError op)))

/-! ### INIT and READ -/

/-- 40_sequencer.md R88: refused when ready; one write of the handshake byte whatever the answer; the effect of `Ok` and
of `Err`; and no end while there is no answer. `x` and `FV` are written in no case. The refusal is the spec's decision
D6, TE its decision D4. The spec gives a call without an answer no successor state (R144, T16 of 95_test_vectors.md):
that it answers a next state with the block busy and the transaction unanswered is the model's choice (DESIGN CHOICE,
log entry 3); the field `result` and the answer kept in the list are the model's record (log entries 5 and 6). -/
def Obligations.InitHandshake : Prop :=
  (∀ s : State, s.busy = none →
    (s.rdy = true → exec .init s = .refused .initWhenReady) ∧
    (s.rdy = false →
      (∀ rest, s.writeAnswers = .ok :: rest →
        exec .init s = .next { s with
          rdy := true, te := false, busy := none, writeAnswers := rest, result := some .ok,
          bus := .write ⟨0x52, [0x40], 0⟩ (some .ok) :: s.bus }) ∧
      (∀ rest, s.writeAnswers = .err :: rest →
        exec .init s = .next { s with
          te := true, busy := none, writeAnswers := rest, result := some (.transportError .init),
          bus := .write ⟨0x52, [0x40], 0⟩ (some .err) :: s.bus }) ∧
      (s.writeAnswers = [] →
        exec .init s = .next { s with
          busy := some .init, bus := .write ⟨0x52, [0x40], 0⟩ none :: s.bus }))) ∧
  encode config .init = .busW1 0x5240

/-- 40_sequencer.md R89 (on `Err` the spec's decision D8): refused before INIT; one write of the request byte with a
six-byte read whatever the answer; on `Ok` all six bytes in received order, FV and TE; on `Err` only TE; and no end
while there is no answer. The refusal is the spec's decision D7, TE its decision D4 (the variant D8: log entry 9). The
spec gives a call without an answer no successor state (R144, T16 of 95_test_vectors.md): that it answers a next state
with the block busy and the transaction unanswered is the model's choice (DESIGN CHOICE, log entry 3); the field
`result` and the answer kept in the list are the model's record (log entries 5 and 6). -/
def Obligations.ReadFetchesFrame : Prop :=
  (∀ s : State, s.busy = none →
    (s.rdy = false → exec .read s = .refused .readBeforeInit) ∧
    (s.rdy = true →
      (∀ b rest, s.readAnswers = .ok b :: rest →
        exec .read s = .next { s with
          x := b, fv := true, te := false, busy := none, readAnswers := rest, result := some .ok,
          bus := .writeThenRead ⟨0x52, [0x00], 6⟩ (some (.ok b)) :: s.bus }) ∧
      (∀ rest, s.readAnswers = .err :: rest →
        exec .read s = .next { s with
          te := true, busy := none, readAnswers := rest, result := some (.transportError .read),
          bus := .writeThenRead ⟨0x52, [0x00], 6⟩ (some .err) :: s.bus }) ∧
      (s.readAnswers = [] →
        exec .read s = .next { s with
          busy := some .read, bus := .writeThenRead ⟨0x52, [0x00], 6⟩ none :: s.bus }))) ∧
  encode config .read = .busW1R6 0x5200

/-- 40_sequencer.md R88 and R89 for an answer that comes after the operation went out: the step of the busy block ends
it with the same effect, and the unanswered transaction becomes the answered one. That a failed READ leaves `x` and FV
unchanged is the spec's decision D8 (log entry 9). That the late answer is a step of its own is the model's choice
(DESIGN CHOICE, log entry 3), that it comes before the host's next event too (log entry 2), and that the entry of the
list keeps the answer is the model's record (log entry 6). The field `result` is log entry 5. -/
def Obligations.LateAnswerEndsOperation : Prop :=
  ∀ s : State,
    (s.busy = some .init →
      (∀ rest, s.writeAnswers = .ok :: rest →
        step s = .next { s with
          rdy := true, te := false, busy := none, writeAnswers := rest, result := some .ok,
          bus := .write ⟨0x52, [0x40], 0⟩ (some .ok) :: s.bus.tail }) ∧
      (∀ rest, s.writeAnswers = .err :: rest →
        step s = .next { s with
          te := true, busy := none, writeAnswers := rest, result := some (.transportError .init),
          bus := .write ⟨0x52, [0x40], 0⟩ (some .err) :: s.bus.tail })) ∧
    (s.busy = some .read →
      (∀ b rest, s.readAnswers = .ok b :: rest →
        step s = .next { s with
          x := b, fv := true, te := false, busy := none, readAnswers := rest, result := some .ok,
          bus := .writeThenRead ⟨0x52, [0x00], 6⟩ (some (.ok b)) :: s.bus.tail }) ∧
      (∀ rest, s.readAnswers = .err :: rest →
        step s = .next { s with
          te := true, busy := none, readAnswers := rest, result := some (.transportError .read),
          bus := .writeThenRead ⟨0x52, [0x00], 6⟩ (some .err) :: s.bus.tail }))

/-- 60_exceptions.md R120 (its step (1), TE, is the spec's own addition, decision D4): taking a TransportError writes
TE, ends the operation with the outcome TransportError of that operation, writes nothing else of the block, adds the one
attempted transaction, and leaves the block idle, so that the same operation is admitted again (R122). That a failed
READ leaves `x` and FV unchanged is the spec's decision D8 (log entry 9). That the operation issued again answers a next
state also where it gets no answer is the model's choice (log entry 3); the field `result` is log entry 5. -/
def Obligations.TransportErrorIsPrecise : Prop :=
  ∀ (s : State) (op : SeqOp), s.admits op →
    (match op with
      | .init => s.writeAnswers.head? = some .err
      | .read => s.readAnswers.head? = some .err) →
    ∃ t : State, exec op.instr s = .next t ∧ t.te = true ∧ t.result = some (.transportError op) ∧
      t.x = s.x ∧ t.fv = s.fv ∧ t.rdy = s.rdy ∧ t.busy = none ∧ t.trace = s.trace ++ [op.transaction config] ∧
      ∃ u, exec op.instr t = .next u

/-- 60_exceptions.md R122 and 40_sequencer.md R85: after a failed INIT the host may issue INIT again; each attempt is
one more handshake write, and the one that ends `Ok` clears TE. -/
def Obligations.FailedInitMayBeRetried : Prop :=
  ∀ (s : State) (rest : List WriteAnswer),
    s.busy = none → s.rdy = false → s.writeAnswers = .err :: .ok :: rest →
    ∃ t u : State, exec .init s = .next t ∧ t.rdy = false ∧ t.te = true ∧
      exec .init t = .next u ∧ u.rdy = true ∧ u.te = false ∧
      u.trace = s.trace ++ [⟨0x52, [0x40], 0⟩, ⟨0x52, [0x40], 0⟩]

/-! ### The seven decode operations -/

/-- 41_joystick.md R96, whole. -/
def Obligations.JoyXIsByteZero : Prop :=
  HandsOver .joyX (fun f => .joystick f.b0) ∧
  (∀ f : Frame, decJoyX config f = f.b0 ∧ decJoyX config f = f.toWord.extractLsb' 40 8) ∧
  (∀ f g : Frame, f.b0 = g.b0 → decJoyX config f = decJoyX config g) ∧
  (∀ v : Byte, (Result.joystick v).value = some v.toNat ∧ v.toNat ≤ 255) ∧
  (decJoyX config ⟨0x80, 0x80, 0x00, 0x00, 0x00, 0xFF⟩).toNat = 128 ∧
  encode config .joyX = .frame48 0xFF0000000000

/-- 41_joystick.md R97, whole. -/
def Obligations.JoyYIsByteOne : Prop :=
  HandsOver .joyY (fun f => .joystick f.b1) ∧
  (∀ f : Frame, decJoyY config f = f.b1 ∧ decJoyY config f = f.toWord.extractLsb' 32 8) ∧
  (∀ f g : Frame, f.b1 = g.b1 → decJoyY config f = decJoyY config g) ∧
  (∀ v : Byte, (Result.joystick v).value = some v.toNat ∧ v.toNat ≤ 255) ∧
  (decJoyY config ⟨0x00, 0xFF, 0xFF, 0xFF, 0xFF, 0x00⟩).toNat = 255 ∧
  (decJoyX config ⟨0x00, 0xFF, 0xFF, 0xFF, 0xFF, 0x00⟩).toNat = 0 ∧
  encode config .joyY = .frame48 0x00FF00000000

/-- 42_accelerometer.md R102, whole: the formula, the concatenation, the frame word fields, the corner cases, the
independence and the example. -/
def Obligations.AccXReconstruction : Prop :=
  HandsOver .accX (fun f =>
    .accel ((f.b2.setWidth 10 <<< 2) ||| ((f.b5 &&& 0b00001100#8) >>> 2).setWidth 10)) ∧
  (∀ f : Frame, decAccX config f = f.b2 ++ f.b5.extractLsb' 2 2 ∧
    decAccX config f = f.toWord.extractLsb' 24 8 ++ f.toWord.extractLsb' 2 2 ∧ (decAccX config f).toNat ≤ 1023) ∧
  (∀ f : Frame,
    (f.b2 = 0x00 ∧ f.b5.extractLsb' 2 2 = 0 → (decAccX config f).toNat = 0) ∧
    (f.b2 = 0xFF ∧ f.b5.extractLsb' 2 2 = 3 → (decAccX config f).toNat = 1023) ∧
    (f.b2 = 0xFF ∧ f.b5 = 0x00 → (decAccX config f).toNat = 1020) ∧
    (f.b2 = 0x00 ∧ f.b5 = 0xFF → (decAccX config f).toNat = 3) ∧
    (f.b2 = 0x00 ∧ f.b5 = 0x04 → (decAccX config f).toNat = 1) ∧
    (f.b2 = 0x00 ∧ f.b5 = 0x08 → (decAccX config f).toNat = 2)) ∧
  (∀ f g : Frame, f.b2 = g.b2 → f.b5.extractLsb' 2 2 = g.b5.extractLsb' 2 2 → decAccX config f = decAccX config g) ∧
  (decAccX config ⟨0x12, 0x34, 0x56, 0x78, 0x9A, 0xBC⟩).toNat = 347 ∧
  encode config .accX = .frame48 0x0000FF00000C

/-- 42_accelerometer.md R103, whole. -/
def Obligations.AccYReconstruction : Prop :=
  HandsOver .accY (fun f =>
    .accel ((f.b3.setWidth 10 <<< 2) ||| ((f.b5 &&& 0b00110000#8) >>> 4).setWidth 10)) ∧
  (∀ f : Frame, decAccY config f = f.b3 ++ f.b5.extractLsb' 4 2 ∧
    decAccY config f = f.toWord.extractLsb' 16 8 ++ f.toWord.extractLsb' 4 2 ∧ (decAccY config f).toNat ≤ 1023) ∧
  (∀ f : Frame,
    (f.b3 = 0x00 ∧ f.b5.extractLsb' 4 2 = 0 → (decAccY config f).toNat = 0) ∧
    (f.b3 = 0xFF ∧ f.b5.extractLsb' 4 2 = 3 → (decAccY config f).toNat = 1023) ∧
    (f.b3 = 0xFF ∧ f.b5 = 0x00 → (decAccY config f).toNat = 1020) ∧
    (f.b3 = 0x00 ∧ f.b5 = 0xFF → (decAccY config f).toNat = 3) ∧
    (f.b3 = 0x00 ∧ f.b5 = 0x10 → (decAccY config f).toNat = 1) ∧
    (f.b3 = 0x00 ∧ f.b5 = 0x20 → (decAccY config f).toNat = 2) ∧
    (f.b3 = 0x00 ∧ f.b5 = 0x30 → (decAccY config f).toNat = 3)) ∧
  (∀ f g : Frame, f.b3 = g.b3 → f.b5.extractLsb' 4 2 = g.b5.extractLsb' 4 2 → decAccY config f = decAccY config g) ∧
  (decAccY config ⟨0x12, 0x34, 0x56, 0x78, 0x9A, 0xBC⟩).toNat = 483 ∧
  encode config .accY = .frame48 0x000000FF0030

/-- 42_accelerometer.md R104, whole. -/
def Obligations.AccZReconstruction : Prop :=
  HandsOver .accZ (fun f =>
    .accel ((f.b4.setWidth 10 <<< 2) ||| ((f.b5 &&& 0b11000000#8) >>> 6).setWidth 10)) ∧
  (∀ f : Frame, decAccZ config f = f.b4 ++ f.b5.extractLsb' 6 2 ∧
    decAccZ config f = f.toWord.extractLsb' 8 8 ++ f.toWord.extractLsb' 6 2 ∧ (decAccZ config f).toNat ≤ 1023) ∧
  (∀ f : Frame,
    (f.b4 = 0x00 ∧ f.b5.extractLsb' 6 2 = 0 → (decAccZ config f).toNat = 0) ∧
    (f.b4 = 0xFF ∧ f.b5.extractLsb' 6 2 = 3 → (decAccZ config f).toNat = 1023) ∧
    (f.b4 = 0xFF ∧ f.b5 = 0x00 → (decAccZ config f).toNat = 1020) ∧
    (f.b4 = 0x00 ∧ f.b5 = 0xFF → (decAccZ config f).toNat = 3) ∧
    (f.b4 = 0x00 ∧ f.b5 = 0x40 → (decAccZ config f).toNat = 1) ∧
    (f.b4 = 0x00 ∧ f.b5 = 0x80 → (decAccZ config f).toNat = 2) ∧
    (f.b4 = 0x00 ∧ f.b5 = 0xC0 → (decAccZ config f).toNat = 3)) ∧
  (∀ f g : Frame, f.b4 = g.b4 → f.b5.extractLsb' 6 2 = g.b5.extractLsb' 6 2 → decAccZ config f = decAccZ config g) ∧
  (decAccZ config ⟨0x12, 0x34, 0x56, 0x78, 0x9A, 0xBC⟩).toNat = 618 ∧
  encode config .accZ = .frame48 0x00000000FFC0

/-- 43_buttons.md R111, whole: true exactly when bit 0 of byte 5 is 0. -/
def Obligations.BtnZIsInvertedBitZero : Prop :=
  HandsOver .btnZ (fun f => .button ((f.b5 &&& 0b00000001#8) == 0)) ∧
  (∀ f : Frame, decBtnZ config f = !f.b5.getLsbD 0 ∧ decBtnZ config f = (f.toWord.extractLsb' 0 1 == 0)) ∧
  (∀ f : Frame,
    (f.b5 = 0x00 → decBtnZ config f = true) ∧ (f.b5 = 0x01 → decBtnZ config f = false) ∧
    (f.b5 = 0xFE → decBtnZ config f = true) ∧ (f.b5 = 0xFF → decBtnZ config f = false)) ∧
  (∀ f g : Frame, f.b5.getLsbD 0 = g.b5.getLsbD 0 → decBtnZ config f = decBtnZ config g) ∧
  (Result.button true).value = some 1 ∧ (Result.button false).value = some 0 ∧
  decBtnZ config ⟨0x12, 0x34, 0x56, 0x78, 0x9A, 0xBD⟩ = false ∧ decBtnZ config ⟨0x12, 0x34, 0x56, 0x78, 0x9A, 0xBC⟩ = true ∧
  encode config .btnZ = .frame48 0x000000000001

/-- 43_buttons.md R112, whole: true exactly when bit 1 of byte 5 is 0. -/
def Obligations.BtnCIsInvertedBitOne : Prop :=
  HandsOver .btnC (fun f => .button ((f.b5 &&& 0b00000010#8) == 0)) ∧
  (∀ f : Frame, decBtnC config f = !f.b5.getLsbD 1 ∧ decBtnC config f = (f.toWord.extractLsb' 1 1 == 0)) ∧
  (∀ f : Frame,
    (f.b5 = 0x00 → decBtnC config f = true) ∧ (f.b5 = 0x02 → decBtnC config f = false) ∧
    (f.b5 = 0xFD → decBtnC config f = true) ∧ (f.b5 = 0xFF → decBtnC config f = false)) ∧
  (∀ f g : Frame, f.b5.getLsbD 1 = g.b5.getLsbD 1 → decBtnC config f = decBtnC config g) ∧
  (Result.button true).value = some 1 ∧ (Result.button false).value = some 0 ∧
  decBtnC config ⟨0x12, 0x34, 0x56, 0x78, 0x9A, 0xBE⟩ = false ∧ decBtnZ config ⟨0x12, 0x34, 0x56, 0x78, 0x9A, 0xBE⟩ = true ∧
  encode config .btnC = .frame48 0x000000000002

/-- 60_exceptions.md R116: on every held frame a decode operation completes with a decoded value, never with an
exception, and TE stays as it was. -/
def Obligations.DecodeRaisesNothing : Prop :=
  ∀ (i : Instr) (s : State), i.isDecode = true → s.busy = none → s.fv = true →
    ∃ (t : State) (r : Result), exec i s = .next t ∧ t.result = some r ∧ decodeResult config i s.x = some r ∧
      (∀ op, r ≠ .transportError op) ∧ t.te = s.te

/-- 20_memory.md R51: a decode operation changes no state at all (only the value handed to the host, the model's field
`result`, is new), makes no transaction, and issued again returns the same value. -/
def Obligations.DecodeChangesNothing : Prop :=
  ∀ (i : Instr) (s t : State), i.isDecode = true → exec i s = .next t →
    t = { s with result := t.result } ∧ (∀ k, frameByte t.x k = frameByte s.x k) ∧ t.status = s.status ∧
    t.trace = s.trace ∧ exec i t = .next t

/-! ### The arithmetic of the decoders -/

/-- 30_encoding.md R70 (its last sentence is an inference the spec marks as derived from R14): the low group is the two
bits at SHIFT, and masking after the shift gives the same. -/
def Obligations.LowGroupExtraction : Prop :=
  ∀ s : Byte,
    lowGroup s 0b00001100 2 = (s.extractLsb' 2 2).setWidth 8 ∧ lowGroup s 0b00001100 2 = (s >>> 2) &&& 0b11 ∧
    lowGroup s 0b00110000 4 = (s.extractLsb' 4 2).setWidth 8 ∧ lowGroup s 0b00110000 4 = (s >>> 4) &&& 0b11 ∧
    lowGroup s 0b11000000 6 = (s.extractLsb' 6 2).setWidth 8 ∧ lowGroup s 0b11000000 6 = (s >>> 6) &&& 0b11

/-- 30_encoding.md R71: `acc[9:2] = hi8`, `acc[1:0] = lo2`, `acc = {hi8, lo2}`, numerically `4*hi8 + lo2`. -/
def Obligations.AccelAssembly : Prop :=
  ∀ (hi : Byte) (lo : BitVec 2),
    assembleAccel config hi (lo.setWidth 8) = hi ++ lo ∧
    (assembleAccel config hi (lo.setWidth 8)).extractLsb' 2 8 = hi ∧
    (assembleAccel config hi (lo.setWidth 8)).extractLsb' 0 2 = lo ∧
    (assembleAccel config hi (lo.setWidth 8)).toNat = 4 * hi.toNat + lo.toNat

/-- 42_accelerometer.md R100 with the mask and shift of each axis: the group is two bits of the status byte, the OR
operands are disjoint, and the result is `4*h + lo`, shifted at ten bits. -/
def Obligations.ReconstructionArithmetic : Prop :=
  ∀ (h s mask : Byte) (k : Nat),
    (mask = 0b00001100 ∧ k = 2) ∨ (mask = 0b00110000 ∧ k = 4) ∨ (mask = 0b11000000 ∧ k = 6) →
    (lowGroup s mask k).toNat = (s.extractLsb' k 2).toNat ∧ (lowGroup s mask k).toNat ≤ 3 ∧
    (zext 10 h <<< 2).toNat = 4 * h.toNat ∧ (zext 10 h <<< 2) &&& zext 10 (lowGroup s mask k) = 0 ∧
    assembleAccel config h (lowGroup s mask k) = (zext 10 h <<< 2) ||| zext 10 (lowGroup s mask k) ∧
    assembleAccel config h (lowGroup s mask k) = h ++ s.extractLsb' k 2 ∧
    (assembleAccel config h (lowGroup s mask k)).toNat = 4 * h.toNat + (lowGroup s mask k).toNat

/-- 42_accelerometer.md R101 (the bijection is an inference the spec marks as derived from R100): every ten-bit value
comes from exactly one pair of a full byte and a low group. -/
def Obligations.AccelRangeBijection : Prop :=
  (∀ v : Accel, ∃! p : Byte × BitVec 2, assembleAccel config p.1 (p.2.setWidth 8) = v) ∧
  (∀ h lo : Byte, (assembleAccel config h lo).toNat ≤ 1023) ∧
  (assembleAccel config 0x00 0).toNat = 0 ∧ (assembleAccel config 0xFF 3).toNat = 1023

/-- 20_memory.md R45: bits 9 to 2 of an accelerometer value are the whole byte at index 2, 3 or 4, bits 1 and 0 two bits
of byte 5 in their order. -/
def Obligations.AccelBitOrder : Prop :=
  ∀ f : Frame,
    (∀ k, k < 8 → (decAccX config f).getLsbD (k + 2) = (frameByte f 2).getLsbD k ∧
      (decAccY config f).getLsbD (k + 2) = (frameByte f 3).getLsbD k ∧
      (decAccZ config f).getLsbD (k + 2) = (frameByte f 4).getLsbD k) ∧
    (∀ k, k < 2 → (decAccX config f).getLsbD k = (frameByte f 5).getLsbD (k + 2) ∧
      (decAccY config f).getLsbD k = (frameByte f 5).getLsbD (k + 4) ∧
      (decAccZ config f).getLsbD k = (frameByte f 5).getLsbD (k + 6))

/-- 42_accelerometer.md R105: one function at three settings (byte, mask, shift). -/
def Obligations.AxesAreOneFunction : Prop :=
  ∀ f : Frame,
    decAccX config f = decAxis config 2 0b00001100 2 f ∧ decAccY config f = decAxis config 3 0b00110000 4 f ∧
    decAccZ config f = decAxis config 4 0b11000000 6 f

/-- 30_encoding.md R72: the single frame bit tested against zero, for both buttons. -/
def Obligations.ButtonAssembly : Prop :=
  ∀ f : Frame,
    decBtnZ config f = ((f.b5 &&& 0b00000001#8) == 0) ∧ decBtnZ config f = !f.b5.getLsbD 0 ∧
    decBtnC config f = ((f.b5 &&& 0b00000010#8) == 0) ∧ decBtnC config f = !f.b5.getLsbD 1 ∧
    (f.b5.getLsbD 0 = false → boolWire (decBtnZ config f) = 1#1) ∧ (f.b5.getLsbD 1 = false → boolWire (decBtnC config f) = 1#1)

/-! ### Encodings -/

/-- 30_encoding.md R65 (the packing is the spec's decision D11): bit k of byte i is `F[40-8i+k]`, byte 0 the most
significant, and the rule's own example. -/
def Obligations.FrameWordLayout : Prop :=
  (∀ (f : Frame) (i : ByteIndex) (k : Nat), k < 8 →
    f.toWord.getLsbD (40 - 8 * i.val + k) = (frameByte f i).getLsbD k) ∧
  (∀ (w : FrameWord) (i : ByteIndex), frameByte (Frame.ofWord w) i = w.extractLsb' (40 - 8 * i.val) 8) ∧
  Frame.toWord ⟨128, 128, 0, 0, 0, 0xFF⟩ = 0x8080000000FF

/-- 30_encoding.md R66, the table: each field by its byte bits and its frame word bits, together all 48 bits, and the
operation that reads it. -/
def Obligations.FrameFieldTable : Prop :=
  (∀ f : Frame, FrameFields.ofWord f.toWord =
    { jx := f.b0, jy := f.b1, axh := f.b2, ayh := f.b3, azh := f.b4,
      azl := f.b5.extractLsb' 6 2, ayl := f.b5.extractLsb' 4 2, axl := f.b5.extractLsb' 2 2,
      bc := f.b5.extractLsb' 1 1, bz := f.b5.extractLsb' 0 1 }) ∧
  (∀ w : FrameWord, (FrameFields.ofWord w).toWord = w) ∧
  (∀ g : FrameFields, FrameFields.ofWord g.toWord = g) ∧
  (∀ (f : Frame) (g : FrameFields), g = FrameFields.ofWord f.toWord →
    decJoyX config f = g.jx ∧ decJoyY config f = g.jy ∧ decAccX config f = g.axh ++ g.axl ∧ decAccY config f = g.ayh ++ g.ayl ∧
    decAccZ config f = g.azh ++ g.azl ∧ decBtnC config f = (g.bc == 0) ∧ decBtnZ config f = (g.bz == 0))

/-- 30_encoding.md R67 (derived by the spec from R66): the seven masks are pairwise disjoint and their union is all 48
bits. -/
def Obligations.ReadsMasksPartitionFrame : Prop :=
  (∀ i j : Instr, i ≠ j → i.readsMask &&& j.readsMask = 0) ∧
  Instr.readsMask .joyX ||| Instr.readsMask .joyY ||| Instr.readsMask .accX ||| Instr.readsMask .accY |||
    Instr.readsMask .accZ ||| Instr.readsMask .btnC ||| Instr.readsMask .btnZ = 0xFFFFFFFFFFFF

/-- 30_encoding.md R67 (derived by the spec from R66) and R76: a decode result depends on the bits of its mask, on every
one of them and on no other bit of the frame. -/
def Obligations.ResultDependsExactlyOnMask : Prop :=
  ∀ (i : Instr) (f g : Frame), i.isDecode = true →
    (decodeResult config i f = decodeResult config i g ↔ f.toWord &&& i.readsMask = g.toWord &&& i.readsMask)

/-- 95_test_vectors.md 2.5: flipping any one bit of any frame changes the result of exactly one decode operation, and it
is the one whose mask has the bit. -/
def Obligations.FlippedBitChangesOneResult : Prop :=
  ∀ (f : Frame) (k : Nat), k < 48 →
    ∃ i : Instr, i.isDecode = true ∧ i.readsMask.getLsbD k = true ∧
      ∀ j : Instr, j.isDecode = true →
        (decodeResult config j (Frame.ofWord (f.toWord ^^^ (1#48 <<< k))) ≠ decodeResult config j f ↔ j = i)

/-- 30_encoding.md R69 (derived by the spec): the two descriptors, read off the transactions the two operations make. -/
def Obligations.EmittedDescriptors : Prop :=
  (SeqOp.transaction config .init).encoding config = some (.busW1 0b101001001000000#15) ∧
  (SeqOp.transaction config .read).encoding config = some (.busW1R6 0b101001000000000#15) ∧
  ∀ op : SeqOp, (op.transaction config).encoding config = some (encode config op.instr)

/-- A few words written out from the encodings of 30_encoding.md R67 and R69 decode to their operations (that a
descriptor's low byte comes first, and that a row of a decode operation is told by its reads mask, is the model's
choice, DESIGN CHOICE, log entry 4). -/
def Obligations.WrittenWordsDecode : Prop :=
  decode config [0b01000000, 0b01010010] = .instr .init ∧
  decode config [0b00000000, 0b01010010] = .instr .read ∧
  decodeTableWord 16 0b0101001001000000 = some .init ∧
  decodeTableWord 16 0b0101001000000000 = some .read ∧
  decodeEncoding config (.frame48 0xFF0000000000) = .instr .joyX ∧
  decodeEncoding config (.frame48 0x0000FF00000C) = .instr .accX ∧
  decodeEncoding config (.frame48 0x000000000001) = .instr .btnZ

/-- 30_encoding.md R74 and R77: no descriptor but the two of R69 is any operation's, and no frame selects an operation.
That there is a decoder of words at all, that it reads descriptors, and that it reads every 48-bit frame word as no
operation, where the rows of the table match every frame, is the model's choice (DESIGN CHOICE, log entry 4). -/
def Obligations.OtherWordsAreRejected : Prop :=
  (∀ td : Descriptor, td ≠ 0x5240 → td ≠ 0x5200 → ∃ r, decodeDescriptor config td = .reject r) ∧
  (∀ a b c d e g : Byte, decode config [a, b, c, d, e, g] = .reject .frameSelectsNoOperation) ∧
  (∀ w : Nat, decodeTableWord 48 w = none)

/-- Decode and encode agree (30_encoding.md R65 to R69, R74, R78), in both directions: for all nine operations with
their rows, bytes and mnemonics, and for the operand of the decode operations, the frame, at every one of its 2^48
values: no bit of an encoding is dropped and no row has two meanings. What a row, a word and the bytes of a word are
here is the model's choice (DESIGN CHOICE, log entry 4). -/
def Obligations.DecodeEncodeAgree : Prop :=
  (∀ i : Instr, i.wf = true → decodeEncoding config (encode config i) = .instr i) ∧
  (∀ (e : Encoding) (i : Instr), decodeEncoding config e = .instr i → e = encode config i) ∧
  (∀ (i : Instr) (bs : List Byte), encodeBytes config i = some bs → decode config bs = .instr i) ∧
  (∀ (bs : List Byte) (i : Instr), decode config bs = .instr i → encodeBytes config i = some bs) ∧
  (∀ (m : String) (i : Instr), Instr.ofMnemonic m = some i ↔ m = i.mnemonic) ∧
  (∀ f : Frame, Frame.ofWord f.toWord = f) ∧
  (∀ w : FrameWord, (Frame.ofWord w).toWord = w) ∧
  (∀ w : FrameWord, (FrameFields.ofWord w).toWord = w) ∧
  (∀ g : FrameFields, FrameFields.ofWord g.toWord = g)

/-! ### Flags, outputs and frames -/

/-- 10_state.md R26 (its bit positions are the spec's decision D4): the three fields of STATUS, and no further bit. -/
def Obligations.StatusWordFields : Prop :=
  ∀ s : State, s.status.getLsbD 0 = s.rdy ∧ s.status.getLsbD 1 = s.fv ∧ s.status.getLsbD 2 = s.te ∧
    ∀ k, 3 ≤ k → s.status.getLsbD k = false

/-- 10_state.md R28: with a frame held the seven outputs are the decode functions of that frame. Without one the spec
calls them unspecified (41_joystick.md R95); that they have no value there is the model's choice (DESIGN CHOICE, log
entry 15). -/
def Obligations.OutputsAreFunctionsOfFrame : Prop :=
  ∀ s : State,
    (s.fv = true → s.outputs config = some
      { joyX := decJoyX config s.x, joyY := decJoyY config s.x, accX := decAccX config s.x,
        accY := decAccY config s.x, accZ := decAccZ config s.x, btnZ := boolWire (decBtnZ config s.x),
        btnC := boolWire (decBtnC config s.x) }) ∧
    (s.fv = false → s.outputs config = none)

/-- The frame of INIT (40_sequencer.md R88): every byte of `x`, FV, the READ answers, the host's events and the earlier
transactions are as they were; one write answer at most is taken; RDY changes to 1 only, and only on `Ok`. It covers the
call without an answer, whose next state is the model's choice (log entry 3); the list of transactions is log entry 6.
-/
def Obligations.InitFrame : Prop :=
  ∀ s t : State, exec .init s = .next t →
    (∀ k, frameByte t.x k = frameByte s.x k) ∧ t.fv = s.fv ∧ t.readAnswers = s.readAnswers ∧ t.host = s.host ∧
    t.resets = s.resets ∧ t.bus.tail = s.bus ∧ t.writeAnswers = s.writeAnswers.tail ∧
    (t.rdy = true ↔ s.writeAnswers.head? = some .ok)

/-- The frame of READ (40_sequencer.md R89, decision D8): RDY, the write answers, the host's events and the earlier
transactions are as they were, one READ answer at most is taken, and every byte of `x` and FV are as they were unless
the answer is `Ok`. It covers the call without an answer, whose next state is the model's choice (log entry 3); the list
of transactions is log entry 6, D8 is log entry 9. -/
def Obligations.ReadFrame : Prop :=
  ∀ s t : State, exec .read s = .next t →
    t.rdy = s.rdy ∧ t.writeAnswers = s.writeAnswers ∧ t.host = s.host ∧ t.resets = s.resets ∧ t.bus.tail = s.bus ∧
    t.readAnswers = s.readAnswers.tail ∧
    ((∀ b, s.readAnswers.head? ≠ some (.ok b)) → (∀ k, frameByte t.x k = frameByte s.x k) ∧ t.fv = s.fv) ∧
    (∀ b, s.readAnswers.head? = some (.ok b) → (∀ k, frameByte t.x k = frameByte b k) ∧ t.fv = true)

/-- 10_state.md R21, R23, R24, R25 (decisions D3 to D5), over all nine operations: only READ writes `x`; RDY changes
only by INIT and only to 1; FV changes only by READ and only to 1; TE changes only by INIT and READ. That a failed READ
does not clear FV is the spec's decision D8 (log entry 9). The next state of a call without an answer is the model's
choice (log entry 3). -/
def Obligations.WhoWritesWhat : Prop :=
  ∀ (i : Instr) (s t : State), exec i s = .next t →
    (t.x ≠ s.x → i = .read) ∧ (t.rdy ≠ s.rdy → i = .init ∧ t.rdy = true) ∧
    (t.fv ≠ s.fv → i = .read ∧ t.fv = true) ∧ (t.te ≠ s.te → i = .init ∨ i = .read)

/-- 70_reset_and_hazards.md R135 (decision D9): RESET is the only way from RDY = 1 back to RDY = 0, and the only way
from FV = 1 back to FV = 0. That a failed READ does not clear FV is the spec's decision D8 (log entry 9). RESET as an
event in the host's queue is log entry 2. -/
def Obligations.OnlyResetClearsReadyAndValid : Prop :=
  ∀ s t : State, step s = .next t →
    (s.rdy = true ∧ t.rdy = false) ∨ (s.fv = true ∧ t.fv = false) →
    s.busy = none ∧ ∃ rest, s.host = .reset :: rest

/-! ### Refusals -/

/-- 60_exceptions.md R117 (decisions D3, D6, D7, D20) over all nine operations: which operation is refused, when and by
which name, and no operation is refused otherwise; no operation faults. That Busy refuses a decode operation too is log
entry 8; that Busy is the name where another refusal fits as well is the model's choice (DESIGN CHOICE, log entry 16).
That a call without an answer is a next state and no stop is the model's choice (DESIGN CHOICE, log entry 3). -/
def Obligations.RefusedExactlyWhen : Prop :=
  ∀ (i : Instr) (s : State),
    (∀ r : Refusal, exec i s = .refused r ↔
      (s.busy.isSome = true ∧ r = .busy) ∨
      (s.busy = none ∧
        ((i = .init ∧ s.rdy = true ∧ r = .initWhenReady) ∨
         (i = .read ∧ s.rdy = false ∧ r = .readBeforeInit) ∨
         (i.isDecode = true ∧ s.fv = false ∧ r = .noFrame)))) ∧
    (∀ f : Fault, exec i s ≠ .fault f)

/-! ### The bus, and what the frame register holds -/

/-- 20_memory.md R59: each INIT and each READ adds exactly its one transaction at the end of the trace, a decode
operation adds none, and nothing is added, dropped or changed when the answer comes. That the transaction of a call
without an answer stands in a next state, and that the answer comes in a step of its own, is the model's choice (DESIGN
CHOICE, log entry 3); the list is read as log entry 6 says. -/
def Obligations.OneTransactionPerOperation : Prop :=
  (∀ (i : Instr) (s t : State), exec i s = .next t →
    t.trace = s.trace ++ ((seqOpOf i).map (SeqOp.transaction config)).toList) ∧
  (∀ (s t : State), HistoryInv config s → s.busy.isSome = true → step s = .next t → t.trace = s.trace)

/-- 30_encoding.md R77: no transaction but the two shapes is ever emitted: the address is 0x52, one byte is written, it
is the handshake with nothing read or the request with six bytes read. -/
def Obligations.OnlyTheTwoTransactions : Prop :=
  ∀ s t : State, step s = .next t →
    (∀ tx ∈ s.trace, tx = ⟨0x52, [0x40], 0⟩ ∨ tx = ⟨0x52, [0x00], 6⟩) →
    ∀ tx ∈ t.trace, (tx = ⟨0x52, [0x40], 0⟩ ∨ tx = ⟨0x52, [0x00], 6⟩) ∧ tx.wf config = true

/-- 20_memory.md R50: after any step the outputs show all six bytes of the frame held before or all six bytes of one
frame that the Transport answered, never a mixture. The queue the answer is taken from, and that a late answer is taken
in a step of its own, is the model's choice (DESIGN CHOICE, log entry 3). -/
def Obligations.FrameIsReplacedWhole : Prop :=
  ∀ s t : State, step s = .next t → t.fv = true →
    ∃ f : Frame, t.x = f ∧ t.outputs config = some (decodeAll config f) ∧
      ((s.fv = true ∧ f = s.x) ∨ (∃ rest, s.readAnswers = .ok f :: rest ∧ t.readAnswers = rest))

/-- 20_memory.md R60: a decode operation returns the function of the frame of the most recent READ that ended `Ok`, and
a READ that ends TransportError leaves `x` and what the decoders return as they were. That a failed READ leaves `x` and
FV unchanged is the spec's decision D8, the variant of 93_implementation_defined.md U14 that this model uses (log entry
9): the last two clauses and the invariant that the first supposes rest on it. That a late answer is taken in a step of its own, before the host's next event, is the
model's choice (log entries 2 and 3). -/
def Obligations.DecodersShowLastGoodFrame : Prop :=
  (∀ (i : Instr) (s : State), HistoryInv config s → i.isDecode = true → s.busy = none → s.fv = true →
    ∃ f : Frame, lastGoodFrame s.bus = some f ∧ exec i s = .next { s with result := decodeResult config i f }) ∧
  (∀ s t : State, exec .read s = .next t → s.readAnswers.head? = some .err →
    t.x = s.x ∧ t.outputs config = s.outputs config) ∧
  (∀ s t : State, s.busy = some .read → step s = .next t → s.readAnswers.head? = some .err →
    t.x = s.x ∧ t.outputs config = s.outputs config)

/-- 20_memory.md R63: the first decode operation after a READ that ended `Ok` already returns the value of the new
frame, with nothing in between, whether the READ ended in its own step or its answer came later. That a late answer is
taken in a step of its own, before the host's next event, is the model's choice (DESIGN CHOICE, log entries 2 and 3). -/
def Obligations.NewFrameIsSeenAtOnce : Prop :=
  ∀ (i : Instr) (s t : State) (b : Frame), i.isDecode = true →
    exec .read s = .next t ∨ (s.busy = some .read ∧ step s = .next t) →
    s.readAnswers.head? = some (.ok b) →
    exec i t = .next { t with result := decodeResult config i b } ∧ t.outputs config = some (decodeAll config b)

/-! ### Invariants -/

/-- The invariant holds right after reset. The list it speaks of keeps the answers (log entry 6). -/
def Obligations.HistoryInvariantAtReset : Prop := HistoryInv config State.reset

/-- Every step keeps the invariant, from every state that meets it: the calls since RESET follow the grammar of
40_sequencer.md R87 with exactly their own transactions (20_memory.md R58, R59), and RDY, FV, TE, `x` and the busy
condition are what those calls and their answers say (10_state.md R21, R23, R24, R25). That a failed READ leaves `x` and
FV unchanged is the spec's decision D8 (log entry 9). That a call without an answer is a next state and ends in a later
step is the model's choice (log entry 3), as are the host's queue (log entry 2) and the step of an idle block (log entry
11); the list keeps the answers (log entry 6). -/
def Obligations.EveryStepKeepsHistoryInvariant : Prop :=
  ∀ s t : State, HistoryInv config s → step s = .next t → HistoryInv config t

/-- Any number of steps from any state that meets the invariant keeps it (decision D8 as for one step). The model's
choices are those of `EveryStepKeepsHistoryInvariant` (log entries 2, 3, 6, 9 and 11). -/
def Obligations.EveryRunKeepsHistoryInvariant : Prop :=
  ∀ (k : Nat) (s t : State), HistoryInv config s → core.run k s = .next t → HistoryInv config t

/-- 70_reset_and_hazards.md R139, the invariant the spec derives: `FV = 1` implies `RDY = 1`; and 10_state.md R24: FV is
1 exactly when at least one READ has ended `Ok` since reset. That the invariant has FV kept by a failed READ is the
spec's decision D8 (log entry 9). The list the invariant speaks of keeps the answers (log entry 6). -/
def Obligations.FrameValidImpliesReady : Prop :=
  ∀ s : State, HistoryInv config s →
    (s.fv = true → s.rdy = true) ∧
    (s.fv = true ↔ ∃ (tx : Transaction) (b : Frame), Call.writeThenRead tx (some (.ok b)) ∈ s.bus)

/-- 10_state.md R33 and 93_implementation_defined.md U2: while no frame is held, no behaviour depends on the contents of
the frame register file: two runs that differ only there agree in every outcome, and are the same from the first frame
on. What a step and a run are is the model's (log entries 2, 3 and 11). -/
def Obligations.UnheldFrameIsUnobservable : Prop :=
  ∀ (k : Nat) (s : State) (g : Frame), s.fv = false →
    agreeButUnheldFrame (core.run k s) (core.run k { s with x := g })

/-! ### The constants kept open -/

/-- 00_scope.md R5 and R8 (decision D15): the constants are an argument of the model, and the operations, the step and
the machine of the fixed names are the model at the source's values. How they are kept open is log entry 10. -/
def Obligations.ModelIsOpenInItsConstants : Prop :=
  (∀ (i : Instr) (s : State), exec i s = execAt config i s) ∧ (∀ s : State, step s = stepAt config s) ∧
  core = modelAt config ∧
  config.devAddr = 0x52 ∧ config.handshakeByte = 0x40 ∧ config.requestByte = 0x00 ∧ config.frameLen = 6 ∧
  config.timeoutPolicy = .never

/-- 40_sequencer.md R88 and R89 at any constants (00_scope.md R8, decision D15; on `Err` of READ decision D8): INIT
writes the constant HANDSHAKE_BYTE to the constant DEV_ADDR, READ writes REQUEST_BYTE there and reads FRAME_LEN bytes;
the admission and the effects of the answers are the same whatever the constants are. That READ stores six bytes at
every FRAME_LEN is the reading of log entry 10. The refusals are the spec's decisions D6 and D7, TE its decision D4 (the
variant D8: log entry 9). The spec gives a call without an answer no successor state (R144, T16 of 95_test_vectors.md):
that it answers a next state with the block busy and the transaction unanswered is the model's choice (DESIGN CHOICE,
log entry 3); the field `result` and the answer kept in the list are the model's record (log entries 5 and 6). -/
def Obligations.SequencerAtAnyConstants : Prop :=
  ∀ (c : Config) (s : State), s.busy = none →
    (s.rdy = true → execAt c .init s = .refused .initWhenReady) ∧
    (s.rdy = false → execAt c .read s = .refused .readBeforeInit) ∧
    (s.rdy = false →
      (∀ rest, s.writeAnswers = .ok :: rest →
        execAt c .init s = .next { s with
          rdy := true, te := false, busy := none, writeAnswers := rest, result := some .ok,
          bus := .write ⟨c.devAddr, [c.handshakeByte], 0⟩ (some .ok) :: s.bus }) ∧
      (∀ rest, s.writeAnswers = .err :: rest →
        execAt c .init s = .next { s with
          te := true, busy := none, writeAnswers := rest, result := some (.transportError .init),
          bus := .write ⟨c.devAddr, [c.handshakeByte], 0⟩ (some .err) :: s.bus }) ∧
      (s.writeAnswers = [] →
        execAt c .init s = .next { s with
          busy := some .init, bus := .write ⟨c.devAddr, [c.handshakeByte], 0⟩ none :: s.bus })) ∧
    (s.rdy = true →
      (∀ b rest, s.readAnswers = .ok b :: rest →
        execAt c .read s = .next { s with
          x := b, fv := true, te := false, busy := none, readAnswers := rest, result := some .ok,
          bus := .writeThenRead ⟨c.devAddr, [c.requestByte], c.frameLen⟩ (some (.ok b)) :: s.bus }) ∧
      (∀ rest, s.readAnswers = .err :: rest →
        execAt c .read s = .next { s with
          te := true, busy := none, readAnswers := rest, result := some (.transportError .read),
          bus := .writeThenRead ⟨c.devAddr, [c.requestByte], c.frameLen⟩ (some .err) :: s.bus }) ∧
      (s.readAnswers = [] →
        execAt c .read s = .next { s with
          busy := some .read, bus := .writeThenRead ⟨c.devAddr, [c.requestByte], c.frameLen⟩ none :: s.bus }))

/-- `EveryStepKeepsHistoryInvariant` at any constants (00_scope.md R8, decision D15): the order of operations, the
flags, the held frame and the one transaction per call are no property of the source's values. That a failed READ leaves
`x` and FV unchanged is the spec's decision D8 (log entry 9). The model's choices are those of
`EveryStepKeepsHistoryInvariant` (log entries 2, 3, 6 and 11). -/
def Obligations.HistoryInvariantAtAnyConstants : Prop :=
  ∀ (c : Config) (s t : State), HistoryInv c s → stepAt c s = .next t → HistoryInv c t

/-- 20_memory.md R55, R56 and 10_state.md R27 (decision D15): the address and the two payload bytes are seen on the bus
only. Two machines that differ in these constants and start in states that differ in the list of transactions agree,
over any run, in every outcome and in everything but that list. What a step and a run are is the model's (log entries 2,
3 and 11). -/
def Obligations.ConstantsShowOnTheBusOnly : Prop :=
  ∀ (k : Nat) (c : Config) (addr : DevAddr) (handshake request : Byte) (s : State) (bus : List Call),
    agreeButBus ((modelAt c).run k s)
      ((modelAt { c with devAddr := addr, handshakeByte := handshake, requestByte := request }).run k
        { s with bus := bus })
end

