-- ==== Sys2Proof/Laws/Frame.lean ====
section
/-! SUPPORT. The bits of a frame word and of a ten-bit value, one lemma per packing, so that no later proof meets the
width arithmetic of a concatenation. -/

namespace Sys2Proof.Machine

/-- Bit k of `{x, y}` (00_scope.md R10): the width of the whole is left to unification. -/
theorem bit_append {n m : Nat} (x : BitVec n) (y : BitVec m) (k : Nat) :
    BitVec.getLsbD (x ++ y) k = if k < m then y.getLsbD k else x.getLsbD (k - m) :=
  BitVec.getLsbD_append

/-- Bit k of a frame word is a bit of the byte that holds it (30_encoding.md R65). -/
theorem toWord_getLsbD (f : Frame) (k : Nat) :
    f.toWord.getLsbD k =
      if k < 8 then f.b5.getLsbD k
      else if k < 16 then f.b4.getLsbD (k - 8)
      else if k < 24 then f.b3.getLsbD (k - 16)
      else if k < 32 then f.b2.getLsbD (k - 24)
      else if k < 40 then f.b1.getLsbD (k - 32)
      else f.b0.getLsbD (k - 40) := by
  refine (bit_append (f.b0 ++ f.b1 ++ f.b2 ++ f.b3 ++ f.b4) f.b5 k).trans (ite_congr rfl (fun _ => rfl) fun _ => ?_)
  refine (bit_append (f.b0 ++ f.b1 ++ f.b2 ++ f.b3) f.b4 (k - 8)).trans (ite_congr (propext (by omega)) (fun _ => rfl) fun _ => ?_)
  rw [show k - 8 - 8 = k - 16 by omega]
  refine (bit_append (f.b0 ++ f.b1 ++ f.b2) f.b3 (k - 16)).trans (ite_congr (propext (by omega)) (fun _ => rfl) fun _ => ?_)
  rw [show k - 16 - 8 = k - 24 by omega]
  refine (bit_append (f.b0 ++ f.b1) f.b2 (k - 24)).trans (ite_congr (propext (by omega)) (fun _ => rfl) fun _ => ?_)
  rw [show k - 24 - 8 = k - 32 by omega]
  refine (bit_append f.b0 f.b1 (k - 32)).trans (ite_congr (propext (by omega)) (fun _ => rfl) fun _ => ?_)
  rw [show k - 32 - 8 = k - 40 by omega]

/-- Bit k of the ten-bit concatenation `{hi, lo}` (00_scope.md R10). -/
theorem accel_getLsbD (hi : Byte) (lo : BitVec 2) (k : Nat) :
    BitVec.getLsbD (hi ++ lo : Accel) k = if k < 2 then lo.getLsbD k else hi.getLsbD (k - 2) :=
  bit_append hi lo k

/-- Bit k of the word packed from the ten fields (30_encoding.md R66). -/
theorem fieldsToWord_getLsbD (g : FrameFields) (k : Nat) :
    g.toWord.getLsbD k =
      if k < 1 then g.bz.getLsbD k
      else if k < 2 then g.bc.getLsbD (k - 1)
      else if k < 4 then g.axl.getLsbD (k - 2)
      else if k < 6 then g.ayl.getLsbD (k - 4)
      else if k < 8 then g.azl.getLsbD (k - 6)
      else if k < 16 then g.azh.getLsbD (k - 8)
      else if k < 24 then g.ayh.getLsbD (k - 16)
      else if k < 32 then g.axh.getLsbD (k - 24)
      else if k < 40 then g.jy.getLsbD (k - 32)
      else g.jx.getLsbD (k - 40) := by
  refine (bit_append (g.jx ++ g.jy ++ g.axh ++ g.ayh ++ g.azh ++ g.azl ++ g.ayl ++ g.axl ++ g.bc) g.bz k).trans (ite_congr rfl (fun _ => rfl) fun _ => ?_)
  refine (bit_append (g.jx ++ g.jy ++ g.axh ++ g.ayh ++ g.azh ++ g.azl ++ g.ayl ++ g.axl) g.bc (k - 1)).trans (ite_congr (propext (by omega)) (fun _ => rfl) fun _ => ?_)
  rw [show k - 1 - 1 = k - 2 by omega]
  refine (bit_append (g.jx ++ g.jy ++ g.axh ++ g.ayh ++ g.azh ++ g.azl ++ g.ayl) g.axl (k - 2)).trans (ite_congr (propext (by omega)) (fun _ => rfl) fun _ => ?_)
  rw [show k - 2 - 2 = k - 4 by omega]
  refine (bit_append (g.jx ++ g.jy ++ g.axh ++ g.ayh ++ g.azh ++ g.azl) g.ayl (k - 4)).trans (ite_congr (propext (by omega)) (fun _ => rfl) fun _ => ?_)
  rw [show k - 4 - 2 = k - 6 by omega]
  refine (bit_append (g.jx ++ g.jy ++ g.axh ++ g.ayh ++ g.azh) g.azl (k - 6)).trans (ite_congr (propext (by omega)) (fun _ => rfl) fun _ => ?_)
  rw [show k - 6 - 2 = k - 8 by omega]
  refine (bit_append (g.jx ++ g.jy ++ g.axh ++ g.ayh) g.azh (k - 8)).trans (ite_congr (propext (by omega)) (fun _ => rfl) fun _ => ?_)
  rw [show k - 8 - 8 = k - 16 by omega]
  refine (bit_append (g.jx ++ g.jy ++ g.axh) g.ayh (k - 16)).trans (ite_congr (propext (by omega)) (fun _ => rfl) fun _ => ?_)
  rw [show k - 16 - 8 = k - 24 by omega]
  refine (bit_append (g.jx ++ g.jy) g.axh (k - 24)).trans (ite_congr (propext (by omega)) (fun _ => rfl) fun _ => ?_)
  rw [show k - 24 - 8 = k - 32 by omega]
  refine (bit_append g.jx g.jy (k - 32)).trans (ite_congr (propext (by omega)) (fun _ => rfl) fun _ => ?_)
  rw [show k - 32 - 8 = k - 40 by omega]

end Sys2Proof.Machine
end

