-- ==== Sys2Proof/Laws/History.lean ====
section
/-! SUPPORT. The history functions on each kind of newest call, one small lemma each. -/

namespace Sys2Proof.Machine

@[simp] theorem openOperation_nil : openOperation [] = none := rfl
@[simp] theorem openOperation_write_open (tx : Transaction) (l : List Call) :
    openOperation (.write tx none :: l) = some .init := rfl
@[simp] theorem openOperation_write_ended (tx : Transaction) (a : WriteAnswer) (l : List Call) :
    openOperation (.write tx (some a) :: l) = none := rfl
@[simp] theorem openOperation_read_open (tx : Transaction) (l : List Call) :
    openOperation (.writeThenRead tx none :: l) = some .read := rfl
@[simp] theorem openOperation_read_ended (tx : Transaction) (a : ReadAnswer) (l : List Call) :
    openOperation (.writeThenRead tx (some a) :: l) = none := rfl

@[simp] theorem initEndedOk_write_ok (tx : Transaction) (l : List Call) :
    initEndedOk (.write tx (some .ok) :: l) = true := rfl
@[simp] theorem initEndedOk_write_err (tx : Transaction) (l : List Call) :
    initEndedOk (.write tx (some .err) :: l) = initEndedOk l := rfl
@[simp] theorem initEndedOk_write_open (tx : Transaction) (l : List Call) :
    initEndedOk (.write tx none :: l) = initEndedOk l := rfl
@[simp] theorem initEndedOk_read (tx : Transaction) (a : Option ReadAnswer) (l : List Call) :
    initEndedOk (.writeThenRead tx a :: l) = initEndedOk l := rfl

@[simp] theorem lastGoodFrame_write (tx : Transaction) (a : Option WriteAnswer) (l : List Call) :
    lastGoodFrame (.write tx a :: l) = lastGoodFrame l := rfl
@[simp] theorem lastGoodFrame_read_ok (tx : Transaction) (b : Frame) (l : List Call) :
    lastGoodFrame (.writeThenRead tx (some (.ok b)) :: l) = some b := rfl
@[simp] theorem lastGoodFrame_read_err (tx : Transaction) (l : List Call) :
    lastGoodFrame (.writeThenRead tx (some .err) :: l) = lastGoodFrame l := rfl
@[simp] theorem lastGoodFrame_read_open (tx : Transaction) (l : List Call) :
    lastGoodFrame (.writeThenRead tx none :: l) = lastGoodFrame l := rfl

end Sys2Proof.Machine
end

