-- ==== Sys2Proof/Laws/State.lean ====
section
/-! SUPPORT. One lemma per field per state update, true by definition, so that no later proof unfolds an update. -/

namespace Sys2Proof.Machine

@[simp] theorem State.setTe_x (v : Bool) (s : State) : (State.setTe v s).x = s.x := rfl
@[simp] theorem State.setTe_rdy (v : Bool) (s : State) : (State.setTe v s).rdy = s.rdy := rfl
@[simp] theorem State.setTe_fv (v : Bool) (s : State) : (State.setTe v s).fv = s.fv := rfl
@[simp] theorem State.setTe_te (v : Bool) (s : State) : (State.setTe v s).te = v := rfl
@[simp] theorem State.setTe_busy (v : Bool) (s : State) : (State.setTe v s).busy = s.busy := rfl
@[simp] theorem State.setTe_bus (v : Bool) (s : State) : (State.setTe v s).bus = s.bus := rfl
@[simp] theorem State.setTe_result (v : Bool) (s : State) : (State.setTe v s).result = s.result := rfl
@[simp] theorem State.setTe_host (v : Bool) (s : State) : (State.setTe v s).host = s.host := rfl
@[simp] theorem State.setTe_writeAnswers (v : Bool) (s : State) : (State.setTe v s).writeAnswers = s.writeAnswers := rfl
@[simp] theorem State.setTe_readAnswers (v : Bool) (s : State) : (State.setTe v s).readAnswers = s.readAnswers := rfl
@[simp] theorem State.setTe_resets (v : Bool) (s : State) : (State.setTe v s).resets = s.resets := rfl

@[simp] theorem State.setReady_x (s : State) : (State.setReady s).x = s.x := rfl
@[simp] theorem State.setReady_rdy (s : State) : (State.setReady s).rdy = true := rfl
@[simp] theorem State.setReady_fv (s : State) : (State.setReady s).fv = s.fv := rfl
@[simp] theorem State.setReady_te (s : State) : (State.setReady s).te = s.te := rfl
@[simp] theorem State.setReady_busy (s : State) : (State.setReady s).busy = s.busy := rfl
@[simp] theorem State.setReady_bus (s : State) : (State.setReady s).bus = s.bus := rfl
@[simp] theorem State.setReady_result (s : State) : (State.setReady s).result = s.result := rfl
@[simp] theorem State.setReady_host (s : State) : (State.setReady s).host = s.host := rfl
@[simp] theorem State.setReady_writeAnswers (s : State) : (State.setReady s).writeAnswers = s.writeAnswers := rfl
@[simp] theorem State.setReady_readAnswers (s : State) : (State.setReady s).readAnswers = s.readAnswers := rfl
@[simp] theorem State.setReady_resets (s : State) : (State.setReady s).resets = s.resets := rfl

@[simp] theorem State.holdFrame_x (b : Frame) (s : State) : (State.holdFrame b s).x = b := rfl
@[simp] theorem State.holdFrame_rdy (b : Frame) (s : State) : (State.holdFrame b s).rdy = s.rdy := rfl
@[simp] theorem State.holdFrame_fv (b : Frame) (s : State) : (State.holdFrame b s).fv = true := rfl
@[simp] theorem State.holdFrame_te (b : Frame) (s : State) : (State.holdFrame b s).te = s.te := rfl
@[simp] theorem State.holdFrame_busy (b : Frame) (s : State) : (State.holdFrame b s).busy = s.busy := rfl
@[simp] theorem State.holdFrame_bus (b : Frame) (s : State) : (State.holdFrame b s).bus = s.bus := rfl
@[simp] theorem State.holdFrame_result (b : Frame) (s : State) : (State.holdFrame b s).result = s.result := rfl
@[simp] theorem State.holdFrame_host (b : Frame) (s : State) : (State.holdFrame b s).host = s.host := rfl
@[simp] theorem State.holdFrame_writeAnswers (b : Frame) (s : State) : (State.holdFrame b s).writeAnswers = s.writeAnswers := rfl
@[simp] theorem State.holdFrame_readAnswers (b : Frame) (s : State) : (State.holdFrame b s).readAnswers = s.readAnswers := rfl
@[simp] theorem State.holdFrame_resets (b : Frame) (s : State) : (State.holdFrame b s).resets = s.resets := rfl

@[simp] theorem State.startCall_x (c : Config) (op : SeqOp) (s : State) : (State.startCall c op s).x = s.x := rfl
@[simp] theorem State.startCall_rdy (c : Config) (op : SeqOp) (s : State) : (State.startCall c op s).rdy = s.rdy := rfl
@[simp] theorem State.startCall_fv (c : Config) (op : SeqOp) (s : State) : (State.startCall c op s).fv = s.fv := rfl
@[simp] theorem State.startCall_te (c : Config) (op : SeqOp) (s : State) : (State.startCall c op s).te = s.te := rfl
@[simp] theorem State.startCall_busy (c : Config) (op : SeqOp) (s : State) : (State.startCall c op s).busy = some op := rfl
@[simp] theorem State.startCall_bus (c : Config) (op : SeqOp) (s : State) : (State.startCall c op s).bus = op.openCall c :: s.bus := rfl
@[simp] theorem State.startCall_result (c : Config) (op : SeqOp) (s : State) : (State.startCall c op s).result = s.result := rfl
@[simp] theorem State.startCall_host (c : Config) (op : SeqOp) (s : State) : (State.startCall c op s).host = s.host := rfl
@[simp] theorem State.startCall_writeAnswers (c : Config) (op : SeqOp) (s : State) : (State.startCall c op s).writeAnswers = s.writeAnswers := rfl
@[simp] theorem State.startCall_readAnswers (c : Config) (op : SeqOp) (s : State) : (State.startCall c op s).readAnswers = s.readAnswers := rfl
@[simp] theorem State.startCall_resets (c : Config) (op : SeqOp) (s : State) : (State.startCall c op s).resets = s.resets := rfl

@[simp] theorem State.recordAnswer_x (c : Call) (s : State) : (State.recordAnswer c s).x = s.x := rfl
@[simp] theorem State.recordAnswer_rdy (c : Call) (s : State) : (State.recordAnswer c s).rdy = s.rdy := rfl
@[simp] theorem State.recordAnswer_fv (c : Call) (s : State) : (State.recordAnswer c s).fv = s.fv := rfl
@[simp] theorem State.recordAnswer_te (c : Call) (s : State) : (State.recordAnswer c s).te = s.te := rfl
@[simp] theorem State.recordAnswer_busy (c : Call) (s : State) : (State.recordAnswer c s).busy = s.busy := rfl
@[simp] theorem State.recordAnswer_bus (c : Call) (s : State) : (State.recordAnswer c s).bus = c :: s.bus.tail := rfl
@[simp] theorem State.recordAnswer_result (c : Call) (s : State) : (State.recordAnswer c s).result = s.result := rfl
@[simp] theorem State.recordAnswer_host (c : Call) (s : State) : (State.recordAnswer c s).host = s.host := rfl
@[simp] theorem State.recordAnswer_writeAnswers (c : Call) (s : State) : (State.recordAnswer c s).writeAnswers = s.writeAnswers := rfl
@[simp] theorem State.recordAnswer_readAnswers (c : Call) (s : State) : (State.recordAnswer c s).readAnswers = s.readAnswers := rfl
@[simp] theorem State.recordAnswer_resets (c : Call) (s : State) : (State.recordAnswer c s).resets = s.resets := rfl

@[simp] theorem State.endOk_x (s : State) : (State.endOk s).x = s.x := rfl
@[simp] theorem State.endOk_rdy (s : State) : (State.endOk s).rdy = s.rdy := rfl
@[simp] theorem State.endOk_fv (s : State) : (State.endOk s).fv = s.fv := rfl
@[simp] theorem State.endOk_te (s : State) : (State.endOk s).te = false := rfl
@[simp] theorem State.endOk_busy (s : State) : (State.endOk s).busy = none := rfl
@[simp] theorem State.endOk_bus (s : State) : (State.endOk s).bus = s.bus := rfl
@[simp] theorem State.endOk_result (s : State) : (State.endOk s).result = some .ok := rfl
@[simp] theorem State.endOk_host (s : State) : (State.endOk s).host = s.host := rfl
@[simp] theorem State.endOk_writeAnswers (s : State) : (State.endOk s).writeAnswers = s.writeAnswers := rfl
@[simp] theorem State.endOk_readAnswers (s : State) : (State.endOk s).readAnswers = s.readAnswers := rfl
@[simp] theorem State.endOk_resets (s : State) : (State.endOk s).resets = s.resets := rfl

@[simp] theorem State.raiseTransportError_x (op : SeqOp) (s : State) : (State.raiseTransportError op s).x = s.x := rfl
@[simp] theorem State.raiseTransportError_rdy (op : SeqOp) (s : State) : (State.raiseTransportError op s).rdy = s.rdy := rfl
@[simp] theorem State.raiseTransportError_fv (op : SeqOp) (s : State) : (State.raiseTransportError op s).fv = s.fv := rfl
@[simp] theorem State.raiseTransportError_te (op : SeqOp) (s : State) : (State.raiseTransportError op s).te = true := rfl
@[simp] theorem State.raiseTransportError_busy (op : SeqOp) (s : State) : (State.raiseTransportError op s).busy = none := rfl
@[simp] theorem State.raiseTransportError_bus (op : SeqOp) (s : State) : (State.raiseTransportError op s).bus = s.bus := rfl
@[simp] theorem State.raiseTransportError_result (op : SeqOp) (s : State) : (State.raiseTransportError op s).result = some (.transportError op) := rfl
@[simp] theorem State.raiseTransportError_host (op : SeqOp) (s : State) : (State.raiseTransportError op s).host = s.host := rfl
@[simp] theorem State.raiseTransportError_writeAnswers (op : SeqOp) (s : State) : (State.raiseTransportError op s).writeAnswers = s.writeAnswers := rfl
@[simp] theorem State.raiseTransportError_readAnswers (op : SeqOp) (s : State) : (State.raiseTransportError op s).readAnswers = s.readAnswers := rfl
@[simp] theorem State.raiseTransportError_resets (op : SeqOp) (s : State) : (State.raiseTransportError op s).resets = s.resets := rfl

@[simp] theorem State.applyReset_x (s : State) : (State.applyReset s).x = Config.resetFrame (s.resets + 1) := rfl
@[simp] theorem State.applyReset_rdy (s : State) : (State.applyReset s).rdy = false := rfl
@[simp] theorem State.applyReset_fv (s : State) : (State.applyReset s).fv = false := rfl
@[simp] theorem State.applyReset_te (s : State) : (State.applyReset s).te = false := rfl
@[simp] theorem State.applyReset_busy (s : State) : (State.applyReset s).busy = none := rfl
@[simp] theorem State.applyReset_bus (s : State) : (State.applyReset s).bus = [] := rfl
@[simp] theorem State.applyReset_result (s : State) : (State.applyReset s).result = none := rfl
@[simp] theorem State.applyReset_host (s : State) : (State.applyReset s).host = s.host := rfl
@[simp] theorem State.applyReset_writeAnswers (s : State) : (State.applyReset s).writeAnswers = s.writeAnswers := rfl
@[simp] theorem State.applyReset_readAnswers (s : State) : (State.applyReset s).readAnswers = s.readAnswers := rfl
@[simp] theorem State.applyReset_resets (s : State) : (State.applyReset s).resets = s.resets + 1 := rfl

@[simp] theorem State.present_x (i : Instr) (s : State) : (State.present i s).x = s.x := rfl
@[simp] theorem State.present_rdy (i : Instr) (s : State) : (State.present i s).rdy = s.rdy := rfl
@[simp] theorem State.present_fv (i : Instr) (s : State) : (State.present i s).fv = s.fv := rfl
@[simp] theorem State.present_te (i : Instr) (s : State) : (State.present i s).te = s.te := rfl
@[simp] theorem State.present_busy (i : Instr) (s : State) : (State.present i s).busy = s.busy := rfl
@[simp] theorem State.present_bus (i : Instr) (s : State) : (State.present i s).bus = s.bus := rfl
@[simp] theorem State.present_result (i : Instr) (s : State) : (State.present i s).result = s.result := rfl
@[simp] theorem State.present_host (i : Instr) (s : State) : (State.present i s).host = .issue i :: s.host := rfl
@[simp] theorem State.present_writeAnswers (i : Instr) (s : State) : (State.present i s).writeAnswers = s.writeAnswers := rfl
@[simp] theorem State.present_readAnswers (i : Instr) (s : State) : (State.present i s).readAnswers = s.readAnswers := rfl
@[simp] theorem State.present_resets (i : Instr) (s : State) : (State.present i s).resets = s.resets := rfl

end Sys2Proof.Machine
end

