-- ==== Sys2Proof/Laws/Ops.lean ====
section
/-! SUPPORT. What each shared operation can do, said once: the ends of a call, taking an answer, calling the Transport,
admission, sampling, and one step. -/

namespace Sys2Proof.Machine

/-! ### The ends of the two calls -/

/-- INIT on `Ok` (40_sequencer.md R88). -/
theorem commitInit_ok (c : Config) (s : State) :
    State.commitInit c .ok s = { s with
      rdy := true, te := false, busy := none, result := some .ok,
      bus := .write (SeqOp.transaction c .init) (some .ok) :: s.bus.tail } := rfl

/-- INIT on `Err` (40_sequencer.md R88, 60_exceptions.md R120). -/
theorem commitInit_err (c : Config) (s : State) :
    State.commitInit c .err s = { s with
      te := true, busy := none, result := some (.transportError .init),
      bus := .write (SeqOp.transaction c .init) (some .err) :: s.bus.tail } := rfl

/-- READ on `Ok` (40_sequencer.md R89). -/
theorem commitRead_ok (c : Config) (b : Frame) (s : State) :
    State.commitRead c (.ok b) s = { s with
      x := b, fv := true, te := false, busy := none, result := some .ok,
      bus := .writeThenRead (SeqOp.transaction c .read) (some (.ok b)) :: s.bus.tail } := rfl

/-- READ on `Err` (40_sequencer.md R89, 60_exceptions.md R120). -/
theorem commitRead_err (c : Config) (s : State) :
    State.commitRead c .err s = { s with
      te := true, busy := none, result := some (.transportError .read),
      bus := .writeThenRead (SeqOp.transaction c .read) (some .err) :: s.bus.tail } := rfl

/-! ### Taking an answer -/

/-- An idle block has no answer to take. -/
theorem settle_idle {c : Config} {s : State} (h : s.busy = none) : s.settle c = none := by
  simp [State.settle, h]

/-- An INIT in progress takes the next write answer. -/
theorem settle_init {c : Config} {s : State} {a : WriteAnswer} {rest : List WriteAnswer} (h : s.busy = some .init)
    (ha : s.writeAnswers = a :: rest) : s.settle c = some (State.commitInit c a { s with writeAnswers := rest }) := by
  simp [State.settle, h, ha]

/-- A READ in progress takes the next read answer. -/
theorem settle_read {c : Config} {s : State} {a : ReadAnswer} {rest : List ReadAnswer} (h : s.busy = some .read)
    (ha : s.readAnswers = a :: rest) : s.settle c = some (State.commitRead c a { s with readAnswers := rest }) := by
  simp [State.settle, h, ha]

/-- An operation without an answer has no step of its own (70_reset_and_hazards.md R144). -/
theorem settle_unanswered {c : Config} {s : State} {op : SeqOp} (h : s.busy = some op) (hu : s.unanswered op) :
    s.settle c = none := by
  cases op <;> simp_all [State.settle, State.unanswered]

/-- Everything taking an answer can be: an INIT or a READ in progress ended on the next answer of its own queue. -/
theorem settle_cases {c : Config} {s t : State} (h : s.settle c = some t) :
    (s.busy = some .init ∧ ∃ a rest, s.writeAnswers = a :: rest ∧
      t = State.commitInit c a { s with writeAnswers := rest }) ∨
    (s.busy = some .read ∧ ∃ a rest, s.readAnswers = a :: rest ∧
      t = State.commitRead c a { s with readAnswers := rest }) := by
  unfold State.settle at h
  split at h
  · cases h
  · split at h
    · cases h
    · next hb _ a rest ha => exact .inl ⟨hb, a, rest, ha, by simpa using h.symm⟩
  · split at h
    · cases h
    · next hb _ a rest ha => exact .inr ⟨hb, a, rest, ha, by simpa using h.symm⟩

/-- There is no answer to take exactly when the block is idle or its operation is unanswered. -/
theorem settle_none_iff {c : Config} {s : State} :
    s.settle c = none ↔ s.busy = none ∨ ∃ op, s.busy = some op ∧ s.unanswered op := by
  constructor
  · intro h
    cases hb : s.busy with
    | none => exact .inl rfl
    | some op =>
      refine .inr ⟨op, rfl, ?_⟩
      cases op
      · cases ha : s.writeAnswers with
        | nil => exact ha
        | cons a rest => simp [settle_init hb ha] at h
      · cases ha : s.readAnswers with
        | nil => exact ha
        | cons a rest => simp [settle_read hb ha] at h
  · rintro (h | ⟨op, h, hu⟩)
    · exact settle_idle h
    · exact settle_unanswered h hu

/-! ### Calling the Transport -/

/-- INIT's call with an answer there: it ends in the same step. -/
theorem callTransport_init {c : Config} {s : State} {a : WriteAnswer} {rest : List WriteAnswer} (ha : s.writeAnswers = a :: rest) :
    s.callTransport c .init = State.commitInit c a { s.startCall c .init with writeAnswers := rest } := by
  simp [State.callTransport, settle_init (s := s.startCall c .init) rfl (by simpa using ha)]

/-- READ's call with an answer there: it ends in the same step. -/
theorem callTransport_read {c : Config} {s : State} {a : ReadAnswer} {rest : List ReadAnswer} (ha : s.readAnswers = a :: rest) :
    s.callTransport c .read = State.commitRead c a { s.startCall c .read with readAnswers := rest } := by
  simp [State.callTransport, settle_read (s := s.startCall c .read) rfl (by simpa using ha)]

/-- A call without an answer: the transaction is out and the block is busy. -/
theorem callTransport_unanswered {c : Config} {s : State} {op : SeqOp} (hu : s.unanswered op) :
    s.callTransport c op = s.startCall c op := by
  have h : (s.startCall c op).unanswered op := by cases op <;> simpa [State.unanswered] using hu
  simp [State.callTransport, settle_unanswered (s := s.startCall c op) rfl h]

/-- Everything a call of the Transport can leave. -/
theorem callTransport_cases (c : Config) (op : SeqOp) (s : State) :
    (s.unanswered op ∧ s.callTransport c op = s.startCall c op) ∨
    (op = .init ∧ ∃ a rest, s.writeAnswers = a :: rest ∧
      s.callTransport c op = State.commitInit c a { s.startCall c .init with writeAnswers := rest }) ∨
    (op = .read ∧ ∃ a rest, s.readAnswers = a :: rest ∧
      s.callTransport c op = State.commitRead c a { s.startCall c .read with readAnswers := rest }) := by
  cases op with
  | init =>
    cases ha : s.writeAnswers with
    | nil => exact .inl ⟨ha, callTransport_unanswered ha⟩
    | cons a rest => exact .inr (.inl ⟨rfl, a, rest, rfl, callTransport_init ha⟩)
  | read =>
    cases ha : s.readAnswers with
    | nil => exact .inl ⟨ha, callTransport_unanswered ha⟩
    | cons a rest => exact .inr (.inr ⟨rfl, a, rest, rfl, callTransport_read ha⟩)

/-! ### Admission and sampling -/

/-- A sequencer operation answers a next state exactly when the block is idle and RDY is as it needs it. -/
theorem sequence_next {c : Config} {op : SeqOp} {need : Bool} {why : Refusal} {s t : State} :
    s.sequence c op need why = .next t ↔ s.busy = none ∧ s.rdy = need ∧ t = s.callTransport c op := by
  unfold State.sequence
  cases hb : s.busy <;> by_cases hr : s.rdy = need <;> simp [hr, eq_comm]

/-- A sequencer operation is refused as busy, or by its own name when RDY is not as it needs it. -/
theorem sequence_refused {c : Config} {op : SeqOp} {need : Bool} {why r : Refusal} {s : State} :
    s.sequence c op need why = .refused r ↔
      (s.busy.isSome = true ∧ r = .busy) ∨ (s.busy = none ∧ s.rdy ≠ need ∧ r = why) := by
  unfold State.sequence
  cases hb : s.busy <;> by_cases hr : s.rdy = need <;> simp [hr, eq_comm]

/-- A sequencer operation never faults. -/
theorem sequence_no_fault {c : Config} {op : SeqOp} {need : Bool} {why : Refusal} {s : State} {f : Fault} :
    s.sequence c op need why ≠ .fault f := by
  unfold State.sequence
  split
  · simp
  · split <;> simp

/-- A decode operation answers a next state exactly when the block is idle and holds a frame. -/
theorem sample_next {dec : Frame → Result} {s t : State} :
    s.sample dec = .next t ↔ s.busy = none ∧ s.fv = true ∧ t = { s with result := some (dec s.x) } := by
  unfold State.sample
  cases hb : s.busy <;> cases hv : s.fv <;> simp [eq_comm]

/-- A decode operation is refused as busy, or without a frame. -/
theorem sample_refused {dec : Frame → Result} {s : State} {r : Refusal} :
    s.sample dec = .refused r ↔
      (s.busy.isSome = true ∧ r = .busy) ∨ (s.busy = none ∧ s.fv = false ∧ r = .noFrame) := by
  unfold State.sample
  cases hb : s.busy <;> cases hv : s.fv <;> simp [eq_comm]

/-- A decode operation never faults. -/
theorem sample_no_fault {dec : Frame → Result} {s : State} {f : Fault} : s.sample dec ≠ .fault f := by
  unfold State.sample
  split
  · simp
  · split <;> simp

/-! ### The nine operations -/

/-- The operations of the fixed name are the model's at the source's constants. -/
theorem exec_eq (i : Instr) (s : State) : exec i s = execAt config i s := rfl

/-- Every operation is one of the two shared forms, at any constants. -/
theorem execAt_forms (c : Config) (i : Instr) (s : State) :
    (i = .init ∧ execAt c i s = s.sequence c .init false .initWhenReady) ∨
    (i = .read ∧ execAt c i s = s.sequence c .read true .readBeforeInit) ∨
    (i.isDecode = true ∧
      ∃ dec : Frame → Result, (∀ f, decodeResult c i f = some (dec f)) ∧ execAt c i s = s.sample dec) := by
  cases i
  · exact .inl ⟨rfl, rfl⟩
  · exact .inr (.inl ⟨rfl, rfl⟩)
  all_goals exact .inr (.inr ⟨rfl, _, fun _ => rfl, rfl⟩)

/-- `execAt_forms` at the source's constants. -/
theorem exec_forms (i : Instr) (s : State) :
    (i = .init ∧ exec i s = s.sequence config .init false .initWhenReady) ∨
    (i = .read ∧ exec i s = s.sequence config .read true .readBeforeInit) ∨
    (i.isDecode = true ∧
      ∃ dec : Frame → Result, (∀ f, decodeResult config i f = some (dec f)) ∧ exec i s = s.sample dec) :=
  execAt_forms config i s

/-- Everything an operation can do when it answers a next state, at any constants. -/
theorem execAt_next_cases {c : Config} {i : Instr} {s t : State} (h : execAt c i s = .next t) :
    s.busy = none ∧
      ((i = .init ∧ s.rdy = false ∧ t = s.callTransport c .init) ∨
       (i = .read ∧ s.rdy = true ∧ t = s.callTransport c .read) ∨
       (i.isDecode = true ∧ s.fv = true ∧ ∃ r, decodeResult c i s.x = some r ∧ t = { s with result := some r })) := by
  rcases execAt_forms c i s with ⟨hi, he⟩ | ⟨hi, he⟩ | ⟨hi, dec, hd, he⟩
  · obtain ⟨hb, hr, ht⟩ := sequence_next.1 (he ▸ h)
    exact ⟨hb, .inl ⟨hi, hr, ht⟩⟩
  · obtain ⟨hb, hr, ht⟩ := sequence_next.1 (he ▸ h)
    exact ⟨hb, .inr (.inl ⟨hi, hr, ht⟩)⟩
  · obtain ⟨hb, hv, ht⟩ := sample_next.1 (he ▸ h)
    exact ⟨hb, .inr (.inr ⟨hi, hv, dec s.x, hd s.x, ht⟩)⟩

/-- `execAt_next_cases` at the source's constants. -/
theorem exec_next_cases {i : Instr} {s t : State} (h : exec i s = .next t) :
    s.busy = none ∧
      ((i = .init ∧ s.rdy = false ∧ t = s.callTransport config .init) ∨
       (i = .read ∧ s.rdy = true ∧ t = s.callTransport config .read) ∨
       (i.isDecode = true ∧ s.fv = true ∧
         ∃ r, decodeResult config i s.x = some r ∧ t = { s with result := some r })) :=
  execAt_next_cases h

/-- No operation faults, at any constants. -/
theorem execAt_no_fault {c : Config} {i : Instr} {s : State} {f : Fault} : execAt c i s ≠ .fault f := by
  rcases execAt_forms c i s with ⟨_, he⟩ | ⟨_, he⟩ | ⟨_, dec, _, he⟩
  · exact he ▸ sequence_no_fault
  · exact he ▸ sequence_no_fault
  · exact he ▸ sample_no_fault

/-- `execAt_no_fault` at the source's constants. -/
theorem exec_no_fault {i : Instr} {s : State} {f : Fault} : exec i s ≠ .fault f := execAt_no_fault

/-! ### The step -/

/-- The step of the fixed name is the model's at the source's constants. -/
theorem step_eq (s : State) : step s = stepAt config s := rfl

/-- The one timeout policy abandons nothing. -/
@[simp] theorem awaitAnswer_eq (c : Config) (op : SeqOp) : awaitAnswer c op = .fault (.awaitingTransport op) := rfl

/-- An answer that has come is taken first. -/
theorem stepAt_settle {c : Config} {s t : State} (h : s.settle c = some t) : stepAt c s = .next t := by
  simp [stepAt, State.advance, h]

/-- Without an answer to take, the host's next operation is run. -/
theorem stepAt_issue {c : Config} {s : State} {i : Instr} {rest : List HostEvent} (h : s.settle c = none)
    (hh : s.host = .issue i :: rest) : stepAt c s = execAt c i { s with host := rest } := by
  simp [stepAt, State.advance, h, hh]

/-- Without an answer to take, the host's RESET is applied. -/
theorem stepAt_reset {c : Config} {s : State} {rest : List HostEvent} (h : s.settle c = none)
    (hh : s.host = .reset :: rest) : stepAt c s = State.hostReset { s with host := rest } := by
  simp [stepAt, State.advance, h, hh]

/-- With no event an idle block stays as it is. -/
theorem stepAt_idle {c : Config} {s : State} (hb : s.busy = none) (hh : s.host = []) : stepAt c s = .next s := by
  simp [stepAt, State.advance, settle_idle hb, hh, hb]

/-- With no event a busy block whose answer has not come is stuck. -/
theorem stepAt_stuck {c : Config} {s : State} {op : SeqOp} (hb : s.busy = some op) (hu : s.unanswered op)
    (hh : s.host = []) : stepAt c s = .fault (.awaitingTransport op) := by
  simp [stepAt, State.advance, settle_unanswered hb hu, hh, hb]

/-- Everything a step can do when it answers a next state: take an answer, run an operation, reset, or idle. -/
theorem stepAt_next_cases {c : Config} {s t : State} (h : stepAt c s = .next t) :
    s.settle c = some t ∨
    (s.settle c = none ∧ ∃ i rest, s.host = .issue i :: rest ∧ execAt c i { s with host := rest } = .next t) ∨
    (s.busy = none ∧ ∃ rest, s.host = .reset :: rest ∧ t = State.applyReset { s with host := rest }) ∨
    (s.busy = none ∧ s.host = [] ∧ t = s) := by
  cases hs : s.settle c with
  | some u =>
    rw [stepAt_settle hs] at h
    cases h
    exact .inl rfl
  | none =>
    match hh : s.host with
    | .issue i :: rest => exact .inr (.inl ⟨rfl, i, rest, rfl, stepAt_issue hs hh ▸ h⟩)
    | .reset :: rest =>
      rw [stepAt_reset hs hh, State.hostReset] at h
      cases hb : s.busy with
      | none =>
        simp only [hb, Option.isSome_none, Bool.false_eq_true, if_false, Host.Outcome.next.injEq] at h
        exact .inr (.inr (.inl ⟨rfl, rest, rfl, by rw [← h, ← hb]⟩))
      | some op => simp [hb] at h
    | [] =>
      rcases settle_none_iff.1 hs with hb | ⟨op, hb, hu⟩
      · rw [stepAt_idle hb hh] at h
        cases h
        exact .inr (.inr (.inr ⟨hb, rfl, rfl⟩))
      · rw [stepAt_stuck hb hu hh] at h
        cases h

/-! The same at the source's constants. -/

/-- An answer that has come is taken first. -/
theorem step_settle {s t : State} (h : s.settle config = some t) : step s = .next t := stepAt_settle h

/-- Without an answer to take, the host's next operation is run. -/
theorem step_issue {s : State} {i : Instr} {rest : List HostEvent} (h : s.settle config = none)
    (hh : s.host = .issue i :: rest) : step s = exec i { s with host := rest } := stepAt_issue h hh

/-- Without an answer to take, the host's RESET is applied. -/
theorem step_reset {s : State} {rest : List HostEvent} (h : s.settle config = none) (hh : s.host = .reset :: rest) :
    step s = State.hostReset { s with host := rest } := stepAt_reset (c := config) h hh

/-- With no event an idle block stays as it is. -/
theorem step_idle {s : State} (hb : s.busy = none) (hh : s.host = []) : step s = .next s :=
  stepAt_idle (c := config) hb hh

/-- With no event a busy block whose answer has not come is stuck. -/
theorem step_stuck {s : State} {op : SeqOp} (hb : s.busy = some op) (hu : s.unanswered op) (hh : s.host = []) :
    step s = .fault (.awaitingTransport op) := stepAt_stuck (c := config) hb hu hh

/-- `stepAt_next_cases` at the source's constants. -/
theorem step_next_cases {s t : State} (h : step s = .next t) :
    s.settle config = some t ∨
    (s.settle config = none ∧ ∃ i rest, s.host = .issue i :: rest ∧ exec i { s with host := rest } = .next t) ∨
    (s.busy = none ∧ ∃ rest, s.host = .reset :: rest ∧ t = State.applyReset { s with host := rest }) ∨
    (s.busy = none ∧ s.host = [] ∧ t = s) := stepAt_next_cases h

/-! ### Runs -/

/-- A run of k + 1 steps is one step and a run of k steps from what it leaves. -/
theorem runAt_next {c : Config} {k : Nat} {s t : State} (h : stepAt c s = .next t) :
    (modelAt c).run (k + 1) s = (modelAt c).run k t := by
  simp only [Host.Core.run, modelAt, h]

/-- A run ends at the first fault. -/
theorem runAt_fault {c : Config} {k : Nat} {s : State} {f : Fault} (h : stepAt c s = .fault f) :
    (modelAt c).run (k + 1) s = .fault f := by
  simp only [Host.Core.run, modelAt, h]

/-- A run ends at the first refusal. -/
theorem runAt_refused {c : Config} {k : Nat} {s : State} {r : Refusal} (h : stepAt c s = .refused r) :
    (modelAt c).run (k + 1) s = .refused r := by
  simp only [Host.Core.run, modelAt, h]

/-- The machine of the fixed name is the model at the source's constants. -/
theorem core_eq : core = modelAt config := rfl

/-- `runAt_next` at the source's constants. -/
theorem run_next {k : Nat} {s t : State} (h : step s = .next t) : core.run (k + 1) s = core.run k t :=
  runAt_next (c := config) h

/-- `runAt_fault` at the source's constants. -/
theorem run_fault {k : Nat} {s : State} {f : Fault} (h : step s = .fault f) : core.run (k + 1) s = .fault f :=
  runAt_fault (c := config) h

/-- `runAt_refused` at the source's constants. -/
theorem run_refused {k : Nat} {s : State} {r : Refusal} (h : step s = .refused r) :
    core.run (k + 1) s = .refused r := runAt_refused (c := config) h

end Sys2Proof.Machine
end

