-- ==== Sys2Proof/Laws/PerInstr.lean ====
section
/-! SUPPORT. One statement per operation about it as syntax: it is well formed, its row of the opcode table decodes back
to it, its mnemonic names it, and the bits it reads are those of its row. -/

namespace Sys2Proof.Laws.RoundTrip

/-- The operation's encodings all lead back to it (30_encoding.md R67, R69, R78). -/
def Statement (i : Instr) : Prop :=
  i.wf = true ∧ decodeEncoding config (encode config i) = .instr i ∧ Instr.ofMnemonic i.mnemonic = some i ∧
  (∀ m, encode config i = .frame48 m → m = i.readsMask)

theorem init : Statement .init := ⟨rfl, by decide, by decide, nofun⟩
theorem read : Statement .read := ⟨rfl, by decide, by decide, nofun⟩
theorem joyX : Statement .joyX := ⟨rfl, by decide, by decide, fun _ h => (Encoding.frame48.inj h).symm⟩
theorem joyY : Statement .joyY := ⟨rfl, by decide, by decide, fun _ h => (Encoding.frame48.inj h).symm⟩
theorem accX : Statement .accX := ⟨rfl, by decide, by decide, fun _ h => (Encoding.frame48.inj h).symm⟩
theorem accY : Statement .accY := ⟨rfl, by decide, by decide, fun _ h => (Encoding.frame48.inj h).symm⟩
theorem accZ : Statement .accZ := ⟨rfl, by decide, by decide, fun _ h => (Encoding.frame48.inj h).symm⟩
theorem btnZ : Statement .btnZ := ⟨rfl, by decide, by decide, fun _ h => (Encoding.frame48.inj h).symm⟩
theorem btnC : Statement .btnC := ⟨rfl, by decide, by decide, fun _ h => (Encoding.frame48.inj h).symm⟩

end Sys2Proof.Laws.RoundTrip
end

