-- ==== Sys2Proof/Tests/Slice0.lean ====
section
/-! SUPPORT. The model's own tests: ill-formed transactions, every encoding written out from the spec, one step of each
operation with the expected result from spec/95_test_vectors.md, and for each statement with hypotheses a state that
meets them. -/

namespace Sys2Proof.Tests

open Sys2Proof Sys2Proof.Machine

/-! ### Small states -/

/-- Frame V4 of 95_test_vectors.md. -/
def v4 : Frame := ⟨0x12, 0x34, 0x56, 0x78, 0x9A, 0xBC⟩

/-- Frame V7 of 95_test_vectors.md: three different low groups. -/
def v7 : Frame := ⟨0xA5, 0x5A, 0xC3, 0x3C, 0x0F, 0x6D⟩

/-- The all-one frame V2 of 95_test_vectors.md. -/
def v2 : Frame := ⟨0xFF, 0xFF, 0xFF, 0xFF, 0xFF, 0xFF⟩

/-- An idle block with these flags, this frame register file and this history. -/
def block (rdy fv te : Bool) (x : Frame) (bus : List Call) : State :=
  { x := x, rdy := rdy, fv := fv, te := te, busy := none, bus := bus, result := none, host := [], writeAnswers := [],
    readAnswers := [], resets := 0 }

/-- The handshake call with its answer, written out from 20_memory.md R55. -/
def handshake (a : Option WriteAnswer) : Call := .write ⟨0x52, [0x40], 0⟩ a

/-- The frame fetch with its answer, written out from 20_memory.md R56. -/
def fetch (a : Option ReadAnswer) : Call := .writeThenRead ⟨0x52, [0x00], 6⟩ a

/-- State (0,0,0,?) of 95_test_vectors.md 2.6, the unspecified frame being any. -/
def fresh : State := block false false false v7 []

/-- State (1,0,0,?) of 95_test_vectors.md 2.6. -/
def ready : State := block true false false v7 [handshake (some .ok)]

/-- State (1,1,0,V4): a frame is held. -/
def held : State := block true true false v4 [fetch (some (.ok v4)), handshake (some .ok)]

/-- An INIT waits. -/
def waitingInit : State := { block false false false v7 [handshake none] with busy := some .init }

/-- A READ waits. -/
def waitingRead : State :=
  { block true true false v4 [fetch none, fetch (some (.ok v4)), handshake (some .ok)] with busy := some .read }

/-- Constants other than the source's (92_eei_decisions.md D15: they are open). -/
def otherConstants : Config := { devAddr := 0x53, handshakeByte := 0x55, requestByte := 0x08 }

/-- The next state, if the outcome is one. -/
def nextOf : Host.Outcome State Fault Refusal → Option State
  | .next s => some s
  | .fault _ => none
  | .refused _ => none

/-- The refusal, if the outcome is one. -/
def refusalOf : Host.Outcome State Fault Refusal → Option Refusal
  | .next _ => none
  | .fault _ => none
  | .refused r => some r

/-- The number an operation hands to the host. -/
def valueOf (o : Host.Outcome State Fault Refusal) : Option Nat := do
  let s ← nextOf o
  let r ← s.result
  r.value

/-- The three flags after an operation, as 95_test_vectors.md 2.6 writes them. -/
def flagsOf (o : Host.Outcome State Fault Refusal) : Option (Bool × Bool × Bool) :=
  (nextOf o).map fun s => (s.rdy, s.fv, s.te)

/-! ### Ill-formed transactions are refused (30_encoding.md R77) -/

theorem test_wf_rejects_other_address : (Transaction.mk 0x53 [0x40] 0).wf config = false := by decide
theorem test_wf_rejects_other_payload : (Transaction.mk 0x52 [0x41] 0).wf config = false := by decide
theorem test_wf_rejects_two_bytes : (Transaction.mk 0x52 [0x40, 0x00] 0).wf config = false := by decide
theorem test_wf_rejects_read_after_handshake : (Transaction.mk 0x52 [0x40] 6).wf config = false := by decide
theorem test_wf_rejects_other_request : (Transaction.mk 0x52 [0x01] 6).wf config = false := by decide
theorem test_wf_rejects_short_read : (Transaction.mk 0x52 [0x00] 5).wf config = false := by decide
theorem test_wf_accepts_the_two :
    (Transaction.mk 0x52 [0x40] 0).wf config = true ∧ (Transaction.mk 0x52 [0x00] 6).wf config = true := by decide

/-! ### Encodings, written out from 30_encoding.md R67 and R69 -/

theorem test_decode_init : decodeEncoding config (.busW1 0b1010010_01000000) = .instr .init := by decide
theorem test_decode_read : decodeEncoding config (.busW1R6 0b1010010_00000000) = .instr .read := by decide
theorem test_decode_joyX : decodeEncoding config (.frame48 0xFF0000000000) = .instr .joyX := by decide
theorem test_decode_joyY : decodeEncoding config (.frame48 0x00FF00000000) = .instr .joyY := by decide
theorem test_decode_accX : decodeEncoding config (.frame48 0x0000FF00000C) = .instr .accX := by decide
theorem test_decode_accY : decodeEncoding config (.frame48 0x000000FF0030) = .instr .accY := by decide
theorem test_decode_accZ : decodeEncoding config (.frame48 0x00000000FFC0) = .instr .accZ := by decide
theorem test_decode_btnZ : decodeEncoding config (.frame48 0x000000000001) = .instr .btnZ := by decide
theorem test_decode_btnC : decodeEncoding config (.frame48 0x000000000002) = .instr .btnC := by decide
theorem test_table_word_init : decodeTableWord 16 0x5240 = some .init := by decide
theorem test_table_word_read : decodeTableWord 16 0x5200 = some .read := by decide
theorem test_frame_word_selects_nothing : decodeTableWord 48 0x8080000000FF = none := by decide
theorem test_decode_rejects_bit_15 : decode config [0x40, 0xD2] = .reject .notADescriptor := by decide
theorem test_decode_rejects_address : decodeDescriptor config 0x5340 = .reject .addressNeverEmitted := by decide
theorem test_decode_rejects_payload : decodeDescriptor config 0x5241 = .reject .payloadNeverEmitted := by decide
theorem test_decode_rejects_format : decodeEncoding config (.busW1 0x5200) = .reject .formatMismatch := by decide
/-- 30_encoding.md R65's example. -/
theorem test_frame_word : Frame.ofWord 0x8080000000FF = ⟨128, 128, 0, 0, 0, 0xFF⟩ := by decide

/-! ### One step of each operation (95_test_vectors.md) -/

/-- T1. -/
theorem test_init_ok : flagsOf (exec .init { fresh with writeAnswers := [.ok] }) = some (true, false, false) := by decide
/-- T2, with the bus trace it adds. -/
theorem test_init_err :
    (nextOf (exec .init { fresh with writeAnswers := [.err] })).map (fun s => (s.rdy, s.te, s.trace)) =
      some (false, true, [⟨0x52, [0x40], 0⟩]) := by decide
/-- T5: the six bytes in received order. -/
theorem test_read_ok :
    (nextOf (exec .read { ready with readAnswers := [.ok v4] })).map (fun s => (s.x, s.fv, s.te, s.trace)) =
      some (v4, true, false, [⟨0x52, [0x40], 0⟩, ⟨0x52, [0x00], 6⟩]) := by decide
/-- T8: the frame is kept. -/
theorem test_read_err :
    (nextOf (exec .read { held with readAnswers := [.err] })).map (fun s => (s.x, s.fv, s.te)) =
      some (v4, true, true) := by decide
/-- V4. -/
theorem test_joyX : valueOf (exec .joyX held) = some 18 := by decide
/-- 95_test_vectors.md 2.2: no sign interpretation. -/
theorem test_joyX_unsigned : valueOf (exec .joyX { held with x := ⟨0xFE, 1, 0xAA, 0x55, 0xAA, 0x55⟩ }) = some 254 := by decide
/-- V4. -/
theorem test_joyY : valueOf (exec .joyY held) = some 52 := by decide
/-- 95_test_vectors.md 2.2: not swapped. -/
theorem test_joyY_not_swapped : valueOf (exec .joyY { held with x := ⟨0x00, 0xFF, 0, 0, 0, 0⟩ }) = some 255 := by decide
/-- V4. -/
theorem test_accX : valueOf (exec .accX held) = some 347 := by decide
/-- S2: 255 << 2 is 1020, not 252. -/
theorem test_accX_wide_shift :
    valueOf (exec .accX { held with x := ⟨0x00, 0xFF, 0xFF, 0xFF, 0xFF, 0x00⟩ }) = some 1020 := by decide
/-- V7: its own low group, 2. -/
theorem test_accY : valueOf (exec .accY { held with x := v7 }) = some 242 := by decide
/-- 95_test_vectors.md 2.3: bit 5 of byte 5 is bit 1 of the result. -/
theorem test_accY_low_group : valueOf (exec .accY { held with x := ⟨0, 0, 0, 0, 0, 0x20⟩ }) = some 2 := by decide
/-- V4. -/
theorem test_accZ : valueOf (exec .accZ held) = some 618 := by decide
/-- V2: the maximum. -/
theorem test_accZ_maximum : valueOf (exec .accZ { held with x := v2 }) = some 1023 := by decide
/-- S1 as corrected by 90_conflicts.md C4: released. -/
theorem test_btnZ_released :
    valueOf (exec .btnZ { held with x := ⟨0x80, 0x80, 0x00, 0x00, 0x00, 0xFF⟩ }) = some 0 := by decide
/-- V6: pressed while C is released. -/
theorem test_btnZ_pressed :
    valueOf (exec .btnZ { held with x := ⟨0x12, 0x34, 0x56, 0x78, 0x9A, 0xBE⟩ }) = some 1 := by decide
/-- 95_test_vectors.md 2.4: compared with 0, not with 1. -/
theorem test_btnC_released : valueOf (exec .btnC { held with x := ⟨0, 0, 0, 0, 0, 0x02⟩ }) = some 0 := by decide
/-- V5: pressed while Z is released. -/
theorem test_btnC_pressed :
    valueOf (exec .btnC { held with x := ⟨0x12, 0x34, 0x56, 0x78, 0x9A, 0xBD⟩ }) = some 1 := by decide
/-- T11, T12, T13. -/
theorem test_refusals :
    refusalOf (exec .init ready) = some .initWhenReady ∧ refusalOf (exec .read fresh) = some .readBeforeInit ∧
    refusalOf (exec .btnZ ready) = some .noFrame := by decide
/-- T16: the transaction is on the bus, unanswered, and the block is stuck. -/
theorem test_read_unanswered :
    (nextOf (exec .read held)).map (fun s => (s.busy, s.x, s.trace.length)) = some (some .read, v4, 3) := by decide
/-- The first operation after reset, placed by its table word, is run: INIT goes out and waits for its answer. -/
theorem test_first_step_after_reset :
    (nextOf (step (State.reset.withFetchWord 16 0x5240))).map (fun s => (s.busy, s.trace)) =
      some (some .init, [⟨0x52, [0x40], 0⟩]) := by decide

/-! ### A state for the hypotheses of each statement -/

theorem witness_ResetEventOnIdleBlock :
    { held with host := [.reset] }.busy = none ∧ { held with host := [.reset] }.host = .reset :: [] := ⟨rfl, rfl⟩
theorem witness_ResetDuringOperationIsRefused :
    { waitingInit with host := [.reset] }.busy = some .init ∧
    { waitingInit with host := [.reset] }.unanswered .init ∧
    { waitingRead with host := [.reset] }.busy = some .read ∧
    { waitingRead with host := [.reset] }.unanswered .read := ⟨rfl, rfl, rfl, rfl⟩
theorem witness_StepRunsIssuedOperation :
    { fresh with host := [.issue .init] }.busy = none ∧
    { fresh with host := [.issue .init] }.host = .issue .init :: [] := ⟨rfl, rfl⟩
theorem witness_StepRunsDecodedWord :
    fresh.busy = none ∧ decodeTableWord 16 0x5240 = some .init ∧ decodeTableWord 15 0x5200 = some .read := by decide
theorem witness_FinishedBlockStays : held.finished := ⟨rfl, rfl⟩
theorem witness_StuckExactlyWhenAwaiting :
    waitingRead.busy = some .read ∧ waitingRead.unanswered .read ∧ waitingRead.host = [] ∧
    waitingInit.busy = some .init ∧ waitingInit.unanswered .init ∧ waitingInit.host = [] :=
  ⟨rfl, rfl, rfl, rfl, rfl, rfl⟩
theorem witness_UnansweredOperationIsStuck :
    fresh.admits .init ∧ fresh.unanswered .init ∧ ready.admits .read ∧ ready.unanswered .read :=
  ⟨⟨rfl, rfl⟩, rfl, ⟨rfl, rfl⟩, rfl⟩
theorem witness_AnsweredOperationEnds :
    { fresh with writeAnswers := [.err] }.admits .init ∧
    { fresh with writeAnswers := [.err] }.transportAnswers .init ∧
    { ready with readAnswers := [.ok v4] }.admits .read ∧
    { ready with readAnswers := [.ok v4] }.transportAnswers .read ∧
    { waitingInit with writeAnswers := [.ok] }.busy = some .init ∧
    { waitingInit with writeAnswers := [.ok] }.transportAnswers .init ∧
    { waitingRead with readAnswers := [.err] }.busy = some .read ∧
    { waitingRead with readAnswers := [.err] }.transportAnswers .read :=
  ⟨⟨rfl, rfl⟩, nofun, ⟨rfl, rfl⟩, nofun, rfl, nofun, rfl, nofun⟩
theorem witness_InitHandshake :
    (ready.busy = none ∧ ready.rdy = true) ∧
    (fresh.busy = none ∧ fresh.rdy = false ∧ fresh.writeAnswers = []) ∧
    ({ fresh with writeAnswers := [.ok] }.rdy = false ∧ { fresh with writeAnswers := [.ok] }.writeAnswers = .ok :: []) ∧
    { fresh with writeAnswers := [.err] }.writeAnswers = .err :: [] := by decide
theorem witness_ReadFetchesFrame :
    (fresh.busy = none ∧ fresh.rdy = false) ∧ (ready.busy = none ∧ ready.rdy = true ∧ ready.readAnswers = []) ∧
    { ready with readAnswers := [.ok v4] }.readAnswers = .ok v4 :: [] ∧
    { ready with readAnswers := [.err] }.readAnswers = .err :: [] := by decide
theorem witness_LateAnswerEndsOperation :
    { waitingInit with writeAnswers := [.ok] }.busy = some .init ∧
    { waitingInit with writeAnswers := [.err] }.writeAnswers = .err :: [] ∧
    { waitingRead with readAnswers := [.ok v7] }.busy = some .read ∧
    { waitingRead with readAnswers := [.err] }.readAnswers = .err :: [] := by decide
theorem witness_TransportErrorIsPrecise :
    { fresh with writeAnswers := [.err] }.admits .init ∧
    { fresh with writeAnswers := [.err] }.writeAnswers.head? = some .err ∧
    { held with readAnswers := [.err] }.admits .read ∧
    { held with readAnswers := [.err] }.readAnswers.head? = some .err := ⟨⟨rfl, rfl⟩, rfl, ⟨rfl, rfl⟩, rfl⟩
theorem witness_FailedInitMayBeRetried :
    { fresh with writeAnswers := [.err, .ok] }.busy = none ∧ { fresh with writeAnswers := [.err, .ok] }.rdy = false ∧
    { fresh with writeAnswers := [.err, .ok] }.writeAnswers = .err :: .ok :: [] := ⟨rfl, rfl, rfl⟩
/-- For the seven decode statements and `DecodeRaisesNothing`: a held frame, and none. -/
theorem witness_HandsOver :
    (held.busy = none ∧ held.fv = true) ∧ (ready.busy = none ∧ ready.fv = false) ∧ Instr.isDecode .joyX = true := by
  decide
/-- The corner cases and the independence clauses of the three accelerometer statements. -/
theorem witness_accelerometer_corners :
    ((Frame.mk 9 9 0x00 0x00 0x00 0x03).b5.extractLsb' 2 2 = 0 ∧
      (Frame.mk 9 9 0xFF 0xFF 0xFF 0xFC).b5.extractLsb' 2 2 = 3) ∧
    ((Frame.mk 9 9 0x00 0x00 0x00 0x03).b5.extractLsb' 4 2 = 0 ∧
      (Frame.mk 9 9 0xFF 0xFF 0xFF 0xFC).b5.extractLsb' 4 2 = 3) ∧
    ((Frame.mk 9 9 0x00 0x00 0x00 0x03).b5.extractLsb' 6 2 = 0 ∧
      (Frame.mk 9 9 0xFF 0xFF 0xFF 0xFC).b5.extractLsb' 6 2 = 3) ∧
    (Frame.mk 1 2 7 7 7 0xFC).b5.extractLsb' 2 2 = (Frame.mk 3 4 7 7 7 0xFF).b5.extractLsb' 2 2 := by decide
/-- The independence clauses of the joystick and button statements. -/
theorem witness_independence :
    (Frame.mk 5 5 0 0 0 0x03).b0 = (Frame.mk 5 5 1 2 3 0xFF).b0 ∧
    (Frame.mk 5 5 0 0 0 0x03).b1 = (Frame.mk 5 5 1 2 3 0xFF).b1 ∧
    (Frame.mk 5 5 0 0 0 0x03).b5.getLsbD 0 = (Frame.mk 5 5 1 2 3 0xFF).b5.getLsbD 0 ∧
    (Frame.mk 5 5 0 0 0 0x03).b5.getLsbD 1 = (Frame.mk 5 5 1 2 3 0xFF).b5.getLsbD 1 := by decide
theorem witness_DecodeChangesNothing : (nextOf (exec .accZ held)).isSome = true ∧ Instr.isDecode .accZ = true := by decide
/-- The three settings of `ReconstructionArithmetic`, and the ends of the bit ranges of `AccelBitOrder`,
`FrameWordLayout` and `FlippedBitChangesOneResult`. -/
theorem witness_settings_and_ranges :
    ((0x0C : Byte) = 0b00001100 ∧ (0x30 : Byte) = 0b00110000 ∧ (0xC0 : Byte) = 0b11000000) ∧
    (0 < 8 ∧ 7 < 8) ∧ (0 < 2 ∧ 1 < 2) ∧ (0 < 48 ∧ 47 < 48) := by decide
theorem witness_ButtonAssembly : (0xFE : Byte).getLsbD 0 = false ∧ (0xFD : Byte).getLsbD 1 = false := by decide
theorem witness_ReadsMasksPartitionFrame : Instr.accX ≠ Instr.accY := by decide
/-- Two different frames that agree on the bits ACC_X reads, and two that do not. -/
theorem witness_ResultDependsExactlyOnMask :
    v4.toWord &&& Instr.readsMask .accX = (Frame.mk 0 0 0x56 0 0 0x0F).toWord &&& Instr.readsMask .accX ∧
    v4.toWord &&& Instr.readsMask .accX ≠ v7.toWord &&& Instr.readsMask .accX := by decide
theorem witness_OtherWordsAreRejected : (0x5241 : Descriptor) ≠ 0x5240 ∧ (0x5241 : Descriptor) ≠ 0x5200 := by decide
theorem witness_DecodeEncodeAgree :
    decodeEncoding config (.busW1 0x5240) = .instr .init ∧ encodeBytes config .read = some [0x00, 0x52] ∧
    decode config [0x40, 0x52] = .instr .init ∧ Instr.wf .btnC = true := by decide
theorem witness_StatusWordFields : 3 ≤ 3 := by decide
theorem witness_OutputsAreFunctionsOfFrame : held.fv = true ∧ ready.fv = false := by decide
theorem witness_InitFrame :
    (nextOf (exec .init { fresh with writeAnswers := [.ok] })).isSome = true ∧ (nextOf (exec .init fresh)).isSome = true := by
  decide
theorem witness_ReadFrame :
    (nextOf (exec .read { ready with readAnswers := [.ok v4] })).isSome = true ∧
    (nextOf (exec .read { held with readAnswers := [.err] })).isSome = true ∧
    { held with readAnswers := [.err] }.readAnswers.head? ≠ some (.ok v4) := by decide
/-- For `WhoWritesWhat`: RDY, FV with x, and TE do change somewhere. -/
theorem witness_WhoWritesWhat :
    (nextOf (exec .init { fresh with writeAnswers := [.ok] })).map (·.rdy) = some true ∧
    (nextOf (exec .read { ready with readAnswers := [.ok v4] })).map (fun s => (s.fv, s.x)) = some (true, v4) ∧
    (nextOf (exec .read { ready with readAnswers := [.err] })).map (·.te) = some true := by decide
theorem witness_OnlyResetClearsReadyAndValid :
    held.rdy = true ∧ held.fv = true ∧
    (nextOf (step { held with host := [.reset] })).map (fun s => (s.rdy, s.fv)) = some (false, false) := by decide
theorem witness_RefusedExactlyWhen :
    refusalOf (exec .joyX waitingRead) = some .busy ∧ refusalOf (exec .init held) = some .initWhenReady := by decide
/-- The invariant in three states of which none is the reset state. -/
theorem witness_HistoryInv_ready : HistoryInv config ready := ⟨rfl, rfl, rfl, nofun, rfl, rfl⟩
theorem witness_HistoryInv_held : HistoryInv config held :=
  ⟨rfl, rfl, rfl, fun _ h => Option.some.inj h, rfl, rfl⟩
theorem witness_HistoryInv_waiting : HistoryInv config waitingRead :=
  ⟨rfl, rfl, rfl, fun _ h => Option.some.inj h, rfl, rfl⟩
/-- For `OneTransactionPerOperation`: the answer to a waiting READ comes, in a state that meets the invariant. -/
theorem witness_OneTransactionPerOperation :
    HistoryInv config { waitingRead with readAnswers := [.ok v7] } ∧
    { waitingRead with readAnswers := [.ok v7] }.busy.isSome = true ∧
    (nextOf (step { waitingRead with readAnswers := [.ok v7] })).isSome = true :=
  ⟨⟨rfl, rfl, rfl, fun _ h => Option.some.inj h, rfl, rfl⟩, rfl, rfl⟩
theorem witness_OnlyTheTwoTransactions :
    held.trace = [⟨0x52, [0x40], 0⟩, ⟨0x52, [0x00], 6⟩] ∧
    (nextOf (step { held with host := [.issue .read] })).isSome = true := by decide
/-- For `FrameIsReplacedWhole`: a new frame, and the frame held before. -/
theorem witness_FrameIsReplacedWhole :
    (nextOf (step { held with host := [.issue .read], readAnswers := [.ok v7] })).map (fun s => (s.fv, s.x)) =
      some (true, v7) ∧
    (nextOf (step { held with host := [.issue .read], readAnswers := [.err] })).map (fun s => (s.fv, s.x)) =
      some (true, v4) := by decide
theorem witness_DecodersShowLastGoodFrame :
    HistoryInv config held ∧ held.busy = none ∧ held.fv = true ∧
    (nextOf (exec .read { held with readAnswers := [.err] })).isSome = true ∧
    (nextOf (step { waitingRead with readAnswers := [.err] })).isSome = true :=
  ⟨witness_HistoryInv_held, rfl, rfl, rfl, rfl⟩
theorem witness_NewFrameIsSeenAtOnce :
    (nextOf (exec .read { ready with readAnswers := [.ok v4] })).isSome = true ∧
    { ready with readAnswers := [.ok v4] }.readAnswers.head? = some (.ok v4) ∧
    (nextOf (step { waitingRead with readAnswers := [.ok v7] })).isSome = true ∧
    { waitingRead with readAnswers := [.ok v7] }.busy = some .read := by decide
theorem witness_EveryStepKeepsHistoryInvariant :
    HistoryInv config held ∧ (nextOf (step held)).isSome = true := ⟨witness_HistoryInv_held, rfl⟩
theorem witness_EveryRunKeepsHistoryInvariant :
    HistoryInv config { held with host := [.issue .read, .issue .accX], readAnswers := [.ok v7] } ∧
    valueOf (core.run 2 { held with host := [.issue .read, .issue .accX], readAnswers := [.ok v7] }) = some 783 :=
  ⟨⟨rfl, rfl, rfl, fun _ h => Option.some.inj h, rfl, rfl⟩, by decide⟩
theorem witness_FrameValidImpliesReady : HistoryInv config held ∧ held.fv = true := ⟨witness_HistoryInv_held, rfl⟩
/-- A run from a state without a frame that goes on to hold one. -/
theorem witness_UnheldFrameIsUnobservable :
    ready.fv = false ∧
    valueOf (core.run 2 { ready with host := [.issue .read, .issue .joyY], readAnswers := [.ok v4] }) = some 52 := by decide

/-! ### Other constants -/

/-- 20_memory.md R55 with the constants of `otherConstants`: they are what is put on the bus. -/
theorem test_init_other_constants :
    (nextOf (execAt otherConstants .init { fresh with writeAnswers := [.ok] })).map (fun s => (s.rdy, s.trace)) =
      some (true, [⟨0x53, [0x55], 0⟩]) := by decide
/-- 20_memory.md R56 likewise, and the transaction is of the shape the constants allow. -/
theorem test_read_other_constants :
    (nextOf (execAt otherConstants .read { ready with bus := [], readAnswers := [.ok v4] })).map
      (fun s => (s.x, s.trace)) = some (v4, [⟨0x53, [0x08], 6⟩]) ∧
    (Transaction.mk 0x53 [0x08] 6).wf otherConstants = true ∧
    (Transaction.mk 0x53 [0x08] 6).wf config = false := by decide
/-- For `SequencerAtAnyConstants`: the hypotheses of each clause. -/
theorem witness_SequencerAtAnyConstants :
    (ready.busy = none ∧ ready.rdy = true ∧ ready.readAnswers = []) ∧
    (fresh.busy = none ∧ fresh.rdy = false ∧ fresh.writeAnswers = []) ∧
    { fresh with writeAnswers := [.ok] }.writeAnswers = .ok :: [] ∧
    { fresh with writeAnswers := [.err] }.writeAnswers = .err :: [] ∧
    { ready with readAnswers := [.ok v4] }.readAnswers = .ok v4 :: [] ∧
    { ready with readAnswers := [.err] }.readAnswers = .err :: [] := by decide
/-- For `HistoryInvariantAtAnyConstants`: a step from a state with a transaction of the other constants. -/
theorem witness_HistoryInvariantAtAnyConstants :
    HistoryInv otherConstants { ready with bus := [.write ⟨0x53, [0x55], 0⟩ (some .ok)], host := [.issue .read] } ∧
    (nextOf (stepAt otherConstants
      { ready with bus := [.write ⟨0x53, [0x55], 0⟩ (some .ok)], host := [.issue .read] })).isSome = true :=
  ⟨⟨rfl, rfl, rfl, nofun, rfl, rfl⟩, rfl⟩
/-- For `ConstantsShowOnTheBusOnly`: a run at other constants that reads a frame and hands over a value of it. -/
theorem witness_ConstantsShowOnTheBusOnly :
    valueOf ((modelAt otherConstants).run 2
      { ready with host := [.issue .read, .issue .joyY], readAnswers := [.ok v4] }) = some 52 := by decide

end Sys2Proof.Tests
end

section
/-! SUPPORT. The decode operations on the state: what one of them can do, said once, and the statement of 20_memory.md
R51. -/

namespace Sys2Proof.Machine

/-- A decode operation answers a next state exactly when the block is idle and holds a frame, and then only the value
handed over is new, a function of that frame (41_joystick.md R95). -/
theorem execAt_decode_next {c : Config} {i : Instr} {s t : State} (hi : i.isDecode = true) :
    execAt c i s = .next t ↔
      s.busy = none ∧ s.fv = true ∧ ∃ r, decodeResult c i s.x = some r ∧ t = { s with result := some r } := by
  rcases execAt_forms c i s with ⟨rfl, _⟩ | ⟨rfl, _⟩ | ⟨_, dec, hdec, he⟩
  · cases hi
  · cases hi
  · simp [he, sample_next, hdec]

/-- `execAt_decode_next` at the source's constants. -/
theorem exec_decode_next {i : Instr} {s t : State} (hi : i.isDecode = true) :
    exec i s = .next t ↔
      s.busy = none ∧ s.fv = true ∧ ∃ r, decodeResult config i s.x = some r ∧ t = { s with result := some r } :=
  execAt_decode_next hi

/-- Settles O23: the next state is the old one with a new result, and admission and value depend on other fields only,
so the operation issued again hands over the same. -/
theorem decodeChangesNothing : Obligations.DecodeChangesNothing := by
  intro i s t hi h
  obtain ⟨hbusy, hfv, r, hr, rfl⟩ := (exec_decode_next hi).1 h
  have again : exec i { s with result := some r } = .next { s with result := some r } :=
    (exec_decode_next hi).2 ⟨hbusy, hfv, r, hr, rfl⟩
  exact ⟨rfl, fun _ => rfl, rfl, rfl, again⟩

end Sys2Proof.Machine
end

section
/-! SUPPORT. The accelerometer reconstruction as a concatenation: the low group is two bits of the shared byte, the
assembly is `{hi8, lo2}`, and so each axis is a whole byte before two bits of byte 5. The masks of the three axes are
`3#8 <<< k` at their shifts k = 2, 4, 6 (42_accelerometer.md R105). -/

namespace Sys2Proof.Machine

/-- Bit j of the mask `0b11`, from which the mask of each axis is shifted. -/
theorem three_getLsbD (j : Nat) : (3#8).getLsbD j = decide (j < 2) :=
  Nat.testBit_two_pow_sub_one 2 j

/-- Bit j of a low group whose mask is the two bits at its shift (30_encoding.md R70). -/
theorem lowGroup_getLsbD (s : Byte) {k : Nat} (hk : k ≤ 6) (j : Nat) :
    (lowGroup s (3#8 <<< k) k).getLsbD j = (decide (j < 2) && s.getLsbD (k + j)) := by
  have bit : (lowGroup s (3#8 <<< k) k).getLsbD j =
      (s.getLsbD (k + j) && (decide (k + j < 8) && decide (j < 2))) := by
    simp [lowGroup, three_getLsbD]
  by_cases h : j < 2
  · simp [bit, h, show k + j < 8 by omega]
  · simp [bit, h]

/-- The low group is the two bits at its shift (30_encoding.md R70). -/
theorem lowGroup_eq_extract (s : Byte) {k : Nat} (hk : k ≤ 6) :
    lowGroup s (3#8 <<< k) k = (s.extractLsb' k 2).setWidth 8 := by
  refine BitVec.eq_of_getLsbD_eq fun j hj => ?_
  rw [lowGroup_getLsbD s hk, BitVec.getLsbD_setWidth, BitVec.getLsbD_extractLsb']
  simp [hj]

/-- The assembly is the concatenation `{hi8, lo2}`, which is the same shift and OR (30_encoding.md R71). -/
theorem assembleAccel_eq_append (hi : Byte) (lo : BitVec 2) :
    assembleAccel config hi (lo.setWidth 8) = hi ++ lo := by
  rw [BitVec.append_def]
  simp [assembleAccel, zext, config, BitVec.shiftLeftZeroExtend_eq]

/-- An axis is its whole high byte before the two bits of byte 5 at its shift (42_accelerometer.md R102 to R105). -/
theorem decAxis_eq_append (i : ByteIndex) {k : Nat} (hk : k ≤ 6) (f : Frame) :
    decAxis config i (3#8 <<< k) k f = frameByte f i ++ f.b5.extractLsb' k 2 := by
  rw [← assembleAccel_eq_append, ← lowGroup_eq_extract f.b5 hk]
  rfl

/-- `ACC_X` as a concatenation (42_accelerometer.md R102). -/
theorem decAccX_eq_append (f : Frame) : decAccX config f = f.b2 ++ f.b5.extractLsb' 2 2 :=
  decAxis_eq_append 2 (k := 2) (by omega) f

/-- `ACC_Y` as a concatenation (42_accelerometer.md R103). -/
theorem decAccY_eq_append (f : Frame) : decAccY config f = f.b3 ++ f.b5.extractLsb' 4 2 :=
  decAxis_eq_append 3 (k := 4) (by omega) f

/-- `ACC_Z` as a concatenation (42_accelerometer.md R104). -/
theorem decAccZ_eq_append (f : Frame) : decAccZ config f = f.b4 ++ f.b5.extractLsb' 6 2 :=
  decAxis_eq_append 4 (k := 6) (by omega) f

/-- Bits 9 to 2 of `{hi8, lo2}` are the whole high byte (20_memory.md R45). -/
theorem accel_getLsbD_high (hi : Byte) (lo : BitVec 2) (k : Nat) :
    BitVec.getLsbD (hi ++ lo : Accel) (k + 2) = hi.getLsbD k := by
  simp [accel_getLsbD]

/-- Bits 1 and 0 of `{hi8, s[k+1:k]}` are two bits of `s` in their order (20_memory.md R45). -/
theorem accel_getLsbD_low (hi s : Byte) (k : Nat) {j : Nat} (hj : j < 2) :
    BitVec.getLsbD (hi ++ s.extractLsb' k 2 : Accel) j = s.getLsbD (j + k) := by
  simp [accel_getLsbD, hj, Nat.add_comm]

/-- Settles O28: each axis is a concatenation of a whole byte and two bits of byte 5. -/
theorem accelBitOrder : Obligations.AccelBitOrder := by
  intro f
  rw [decAccX_eq_append, decAccY_eq_append, decAccZ_eq_append]
  constructor
  · intro k _
    exact ⟨accel_getLsbD_high .., accel_getLsbD_high .., accel_getLsbD_high ..⟩
  · intro k hk
    exact ⟨accel_getLsbD_low _ _ 2 hk, accel_getLsbD_low _ _ 4 hk, accel_getLsbD_low _ _ 6 hk⟩

end Sys2Proof.Machine
end

section
/-! SUPPORT. A button's Boolean is the inverted bit of byte 5 that its mask selects (30_encoding.md R72): the masks are
the powers `2^0` and `2^1` of 43_buttons.md R111 and R112. -/

namespace Sys2Proof.Machine

/-- The test of one masked bit against zero reads that bit inverted (30_encoding.md R72). -/
theorem decButton_twoPow {k : Nat} (hk : k < 8) (f : Frame) :
    decButton config (BitVec.twoPow 8 k) f = !f.b5.getLsbD k := by
  have mask_ne_zero : BitVec.twoPow 8 k ≠ 0#8 := fun h => by
    simpa [hk] using congrArg (·.getLsbD k) h
  change (f.b5 &&& BitVec.twoPow 8 k == 0#8) = _
  rw [BitVec.and_twoPow]
  cases f.b5.getLsbD k with
  | false => rfl
  | true => simpa using mask_ne_zero

/-- `BTN_Z` is bit 0 of byte 5 inverted (43_buttons.md R111). -/
theorem decBtnZ_eq_not_bit (f : Frame) : decBtnZ config f = !f.b5.getLsbD 0 :=
  decButton_twoPow (k := 0) (by omega) f

/-- `BTN_C` is bit 1 of byte 5 inverted (43_buttons.md R112). -/
theorem decBtnC_eq_not_bit (f : Frame) : decBtnC config f = !f.b5.getLsbD 1 :=
  decButton_twoPow (k := 1) (by omega) f

/-- A bit inverted is its one-bit field compared with 0. -/
theorem not_getLsbD_eq_extract (s : Byte) (k : Nat) : (!s.getLsbD k) = (s.extractLsb' k 1 == 0#1) := by
  have one_bit : ∀ v : BitVec 1, (!(v == 1#1)) = (v == 0#1) := by decide
  rw [BitVec.getLsbD_eq_extractLsb', one_bit]

/-- Settles O30: the masked test is the definition, and the inverted bit makes a 0 on the wire a pressed button. -/
theorem buttonAssembly : Obligations.ButtonAssembly := by
  intro f
  refine ⟨rfl, decBtnZ_eq_not_bit f, rfl, decBtnC_eq_not_bit f, fun h => ?_, fun h => ?_⟩
  · rw [decBtnZ_eq_not_bit, h]
    rfl
  · rw [decBtnC_eq_not_bit, h]
    rfl

end Sys2Proof.Machine
end

section
/-! SUPPORT. The number a ten-bit concatenation `{hi8, lo2}` stands for, and the statement of 30_encoding.md R71. -/

namespace Sys2Proof.Machine

/-- `{hi8, lo2}` is numerically `4*hi8 + lo2` (30_encoding.md R71). -/
theorem accel_toNat (hi : Byte) (lo : BitVec 2) : (hi ++ lo : Accel).toNat = 4 * hi.toNat + lo.toNat :=
  calc (hi ++ lo : Accel).toNat
    _ = hi.toNat <<< 2 ||| lo.toNat := BitVec.toNat_append hi lo
    _ = hi.toNat <<< 2 + lo.toNat := (Nat.shiftLeft_add_eq_or_of_lt lo.isLt hi.toNat).symm
    _ = 4 * hi.toNat + lo.toNat := by rw [Nat.shiftLeft_eq, Nat.mul_comm]

/-- Settles O25: the assembly is a concatenation, whose two parts and number are known. -/
theorem accelAssembly : Obligations.AccelAssembly := by
  intro hi lo
  rw [assembleAccel_eq_append]
  exact ⟨rfl, BitVec.extractLsb'_append_eq_left, BitVec.extractLsb'_append_eq_right, accel_toNat hi lo⟩

end Sys2Proof.Machine
end

section
/-! SUPPORT. The ten fields of a frame word (30_encoding.md R66): packing them and reading them back are inverse to each
other, and a frame's word is packed from fields of its bytes. -/

namespace Sys2Proof.Machine

/-- A field of `n` bits at `lo` holds bit `k` of the whole at its own bit `k - lo`. -/
theorem extractLsb'_getLsbD_sub {m lo n k : Nat} (v : BitVec m) (hlo : lo ≤ k) (hk : k < lo + n) :
    (v.extractLsb' lo n).getLsbD (k - lo) = v.getLsbD k := by
  rw [BitVec.getLsbD_extractLsb', Nat.add_sub_cancel' hlo]
  simp [show k - lo < n by omega]

/-- A field is known by its bits in the word. -/
theorem extractLsb'_eq_of_getLsbD {m lo n : Nat} {w : BitVec m} {v : BitVec n}
    (h : ∀ j < n, w.getLsbD (lo + j) = v.getLsbD j) : w.extractLsb' lo n = v := by
  refine BitVec.eq_of_getLsbD_eq fun j hj => ?_
  rw [BitVec.getLsbD_extractLsb', h j hj]
  simp [hj]

/-- The fields of a word packed again give the word: every bit lies in a field (30_encoding.md R66). -/
theorem fieldsToWord_ofWord (w : FrameWord) : (FrameFields.ofWord w).toWord = w := by
  refine BitVec.eq_of_getLsbD_eq fun k _ => ?_
  rw [fieldsToWord_getLsbD]
  split_ifs <;> exact extractLsb'_getLsbD_sub w (by omega) (by omega)

/-- Packed fields are read back: no two share a bit (30_encoding.md R66). -/
theorem fieldsOfWord_toWord (g : FrameFields) : FrameFields.ofWord g.toWord = g := by
  cases g
  simp only [FrameFields.ofWord, FrameFields.mk.injEq]
  refine ⟨?_, ?_, ?_, ?_, ?_, ?_, ?_, ?_, ?_, ?_⟩
  all_goals
    refine extractLsb'_eq_of_getLsbD fun j hj => ?_
    rw [fieldsToWord_getLsbD]
    grind

/-- The ten fields by their byte bits, the table of 30_encoding.md R66. -/
def frameFields (f : Frame) : FrameFields where
  jx  := f.b0
  jy  := f.b1
  axh := f.b2
  ayh := f.b3
  azh := f.b4
  azl := f.b5.extractLsb' 6 2
  ayl := f.b5.extractLsb' 4 2
  axl := f.b5.extractLsb' 2 2
  bc  := f.b5.extractLsb' 1 1
  bz  := f.b5.extractLsb' 0 1

/-- The five low fields make up byte 5 and the other five are whole bytes, so the packed fields are the frame's word. -/
theorem frameFields_toWord (f : Frame) : (frameFields f).toWord = f.toWord := by
  refine BitVec.eq_of_getLsbD_eq fun k _ => ?_
  rw [fieldsToWord_getLsbD, toWord_getLsbD]
  by_cases h : k < 8
  · simp only [h, if_true]
    split_ifs <;> exact extractLsb'_getLsbD_sub f.b5 (by omega) (by omega)
  · simp only [h, if_false, show ¬ k < 1 by omega, show ¬ k < 2 by omega, show ¬ k < 4 by omega, show ¬ k < 6 by omega]
    rfl

/-- The places by byte bits and by frame word bits are the same (30_encoding.md R66). -/
theorem fieldsOfWord_frame (f : Frame) : FrameFields.ofWord f.toWord = frameFields f := by
  rw [← frameFields_toWord, fieldsOfWord_toWord]

/-- Settles O32: packing and reading back are inverse, and each decode function is its own fields. -/
theorem frameFieldTable : Obligations.FrameFieldTable := by
  refine ⟨fieldsOfWord_frame, fieldsToWord_ofWord, fieldsOfWord_toWord, ?_⟩
  rintro f _ rfl
  rw [fieldsOfWord_frame, decAccX_eq_append, decAccY_eq_append, decAccZ_eq_append, decBtnC_eq_not_bit,
    decBtnZ_eq_not_bit, not_getLsbD_eq_extract, not_getLsbD_eq_extract]
  exact ⟨rfl, rfl, rfl, rfl, rfl, rfl, rfl⟩

end Sys2Proof.Machine
end

section
/-! SUPPORT. What reaches the bus: the list of calls after each shared operation and after a step, and the statement of
30_encoding.md R77. -/

namespace Sys2Proof.Machine

/-- INIT's end replaces the newest call by the answered handshake. -/
@[simp] theorem commitInit_bus (c : Config) (a : WriteAnswer) (s : State) :
    (State.commitInit c a s).bus = .write (SeqOp.transaction c .init) (some a) :: s.bus.tail := by
  cases a <;> rfl

/-- READ's end replaces the newest call by the answered frame fetch. -/
@[simp] theorem commitRead_bus (c : Config) (a : ReadAnswer) (s : State) :
    (State.commitRead c a s).bus = .writeThenRead (SeqOp.transaction c .read) (some a) :: s.bus.tail := by
  cases a <;> rfl

/-- Taking an answer replaces the newest call by one with an operation's own transaction. -/
theorem settle_bus {c : Config} {s t : State} (h : s.settle c = some t) :
    ∃ call op, Call.transaction call = SeqOp.transaction c op ∧ t.bus = call :: s.bus.tail := by
  rcases settle_cases h with ⟨_, a, rest, _, rfl⟩ | ⟨_, a, rest, _, rfl⟩
  · exact ⟨_, .init, rfl, commitInit_bus ..⟩
  · exact ⟨_, .read, rfl, commitRead_bus ..⟩

/-- A call of the Transport adds one call with the operation's own transaction (20_memory.md R59). -/
theorem callTransport_bus (c : Config) (op : SeqOp) (s : State) :
    ∃ call, Call.transaction call = SeqOp.transaction c op ∧ (s.callTransport c op).bus = call :: s.bus := by
  rcases callTransport_cases c op s with ⟨_, h⟩ | ⟨rfl, a, rest, _, h⟩ | ⟨rfl, a, rest, _, h⟩
  · exact ⟨op.openCall c, by cases op <;> rfl, by rw [h, State.startCall_bus]⟩
  · exact ⟨_, rfl, by rw [h, commitInit_bus]; rfl⟩
  · exact ⟨_, rfl, by rw [h, commitRead_bus]; rfl⟩

/-- An operation that answers a next state leaves the list of calls or adds one with an operation's own transaction. -/
theorem execAt_bus {c : Config} {i : Instr} {s t : State} (h : execAt c i s = .next t) :
    t.bus = s.bus ∨ ∃ call op, Call.transaction call = SeqOp.transaction c op ∧ t.bus = call :: s.bus := by
  obtain ⟨_, ⟨_, _, rfl⟩ | ⟨_, _, rfl⟩ | ⟨_, _, _, _, rfl⟩⟩ := execAt_next_cases h
  · obtain ⟨call, hcall, hbus⟩ := callTransport_bus c .init s
    exact .inr ⟨call, .init, hcall, hbus⟩
  · obtain ⟨call, hcall, hbus⟩ := callTransport_bus c .read s
    exact .inr ⟨call, .read, hcall, hbus⟩
  · exact .inl rfl

/-- Every call in the list after a step was there before or carries the transaction of INIT or of READ. -/
theorem stepAt_mem_bus {c : Config} {s t : State} (h : stepAt c s = .next t) {call : Call} (hmem : call ∈ t.bus) :
    call ∈ s.bus ∨ ∃ op, call.transaction = SeqOp.transaction c op := by
  have newest {bus : List Call} (hsub : bus ⊆ s.bus)
      (hbus : ∃ new op, Call.transaction new = SeqOp.transaction c op ∧ t.bus = new :: bus) :
      call ∈ s.bus ∨ ∃ op, call.transaction = SeqOp.transaction c op := by
    obtain ⟨new, op, hnew, hbus⟩ := hbus
    rcases List.mem_cons.1 (hbus ▸ hmem) with rfl | hold
    · exact .inr ⟨op, hnew⟩
    · exact .inl (hsub hold)
  rcases stepAt_next_cases h with hs | ⟨_, i, rest, _, he⟩ | ⟨_, rest, _, rfl⟩ | ⟨_, _, rfl⟩
  · exact newest (List.tail_subset _) (settle_bus hs)
  · rcases execAt_bus he with hbus | hbus
    · exact .inl (hbus ▸ hmem)
    · exact newest (List.Subset.refl _) hbus
  · cases hmem
  · exact .inl hmem

/-- The trace shows the transactions of the calls in the list. -/
theorem mem_trace {s : State} {tx : Transaction} : tx ∈ s.trace ↔ ∃ call ∈ s.bus, Call.transaction call = tx := by
  simp [State.trace]

/-- Every transaction in the trace after a step was there before or is that of INIT or of READ. -/
theorem stepAt_mem_trace {c : Config} {s t : State} (h : stepAt c s = .next t) {tx : Transaction}
    (hmem : tx ∈ t.trace) : tx ∈ s.trace ∨ ∃ op, tx = SeqOp.transaction c op := by
  obtain ⟨call, hcall, rfl⟩ := mem_trace.1 hmem
  exact (stepAt_mem_bus h hcall).imp_left fun hold => mem_trace.2 ⟨call, hold, rfl⟩

/-- The transactions of INIT and READ at the source's constants are the two of 30_encoding.md R77. -/
theorem transaction_shape (op : SeqOp) :
    op.transaction config = ⟨0x52, [0x40], 0⟩ ∨ op.transaction config = ⟨0x52, [0x00], 6⟩ := by
  cases op
  · exact .inl rfl
  · exact .inr rfl

/-- Settles O48: a step adds to the trace no transaction but that of INIT or of READ. -/
theorem onlyTheTwoTransactions : Obligations.OnlyTheTwoTransactions := by
  intro s t h hs tx htx
  have shape : tx = ⟨0x52, [0x40], 0⟩ ∨ tx = ⟨0x52, [0x00], 6⟩ := by
    rcases stepAt_mem_trace (c := config) h htx with hold | ⟨op, rfl⟩
    · exact hs tx hold
    · exact transaction_shape op
  refine ⟨shape, ?_⟩
  rcases shape with rfl | rfl
  · decide
  · decide

end Sys2Proof.Machine
end

section
/-! SUPPORT. What a decode operation hands over on an idle block, for all seven of them, and the joystick statements of
41_joystick.md R96 and R97. -/

namespace Sys2Proof.Machine

/-- The operation whose decode function is `dec` hands over `dec` of the held frame (41_joystick.md R95). -/
theorem handsOver_of_decodeResult {i : Instr} {dec : Frame → Result}
    (hdec : ∀ f, decodeResult config i f = some (dec f)) : HandsOver i dec := by
  intro s hidle
  have he : exec i s = s.sample dec := by
    rcases exec_forms i s with ⟨rfl, _⟩ | ⟨rfl, _⟩ | ⟨_, dec', hdec', he⟩
    · cases hdec s.x
    · cases hdec s.x
    · obtain rfl : dec' = dec := funext fun f => Option.some.inj ((hdec' f).symm.trans (hdec f))
      exact he
  rw [he]
  exact ⟨fun hfv => sample_next.2 ⟨hidle, hfv, rfl⟩, fun hfv => sample_refused.2 (.inr ⟨hidle, hfv, rfl⟩)⟩

/-- `JOY_X` is byte 0 (41_joystick.md R96). -/
theorem decJoyX_eq_b0 (f : Frame) : decJoyX config f = f.b0 := rfl

/-- `JOY_Y` is byte 1 (41_joystick.md R97). -/
theorem decJoyY_eq_b1 (f : Frame) : decJoyY config f = f.b1 := rfl

/-- Byte 0 is the field `JX` of the frame word (30_encoding.md R66). -/
theorem toWord_extract_b0 (f : Frame) : f.toWord.extractLsb' 40 8 = f.b0 :=
  congrArg FrameFields.jx (fieldsOfWord_frame f)

/-- Byte 1 is the field `JY` of the frame word (30_encoding.md R66). -/
theorem toWord_extract_b1 (f : Frame) : f.toWord.extractLsb' 32 8 = f.b1 :=
  congrArg FrameFields.jy (fieldsOfWord_frame f)

/-- A joystick result is the byte's unsigned number, 0 to 255 (41_joystick.md R96, R97). -/
theorem joystick_value (v : Byte) : (Result.joystick v).value = some v.toNat ∧ v.toNat ≤ 255 :=
  ⟨rfl, Nat.le_of_lt_succ v.isLt⟩

/-- Settles O15: the decode function is byte 0, which is the field `JX` of the frame word. -/
theorem joyXIsByteZero : Obligations.JoyXIsByteZero := by
  refine ⟨handsOver_of_decodeResult fun _ => rfl, fun f => ?_, fun f g h => ?_, joystick_value, rfl, rfl⟩
  · exact ⟨decJoyX_eq_b0 f, (decJoyX_eq_b0 f).trans (toWord_extract_b0 f).symm⟩
  · rw [decJoyX_eq_b0, decJoyX_eq_b0, h]

/-- Settles O16: the decode function is byte 1, which is the field `JY` of the frame word. -/
theorem joyYIsByteOne : Obligations.JoyYIsByteOne := by
  refine ⟨handsOver_of_decodeResult fun _ => rfl, fun f => ?_, fun f g h => ?_, joystick_value, rfl, rfl, rfl⟩
  · exact ⟨decJoyY_eq_b1 f, (decJoyY_eq_b1 f).trans (toWord_extract_b1 f).symm⟩
  · rw [decJoyY_eq_b1, decJoyY_eq_b1, h]

end Sys2Proof.Machine
end

section
/-! SUPPORT. The arithmetic of the accelerometer reconstruction (42_accelerometer.md R100): nothing is lost by the shift
at ten bits, and its operands share no bit. -/

namespace Sys2Proof.Machine

/-- The shift at ten bits loses nothing of the high byte (42_accelerometer.md R100). -/
theorem zext_shiftLeft_toNat (h : Byte) : (zext 10 h <<< 2).toNat = 4 * h.toNat := by
  have hh : h.toNat < 256 := h.isLt
  simp only [zext, BitVec.toNat_shiftLeft, BitVec.toNat_setWidth, Nat.shiftLeft_eq]
  omega

/-- The two operands of the OR share no bit: the shifted byte has bits 9 to 2, the group bits 1 and 0
(42_accelerometer.md R100). -/
theorem zext_shiftLeft_and_group (h : Byte) (lo : BitVec 2) : (zext 10 h <<< 2) &&& zext 10 (lo.setWidth 8) = 0 := by
  refine BitVec.eq_of_getLsbD_eq fun j _ => ?_
  rw [BitVec.getLsbD_and, BitVec.getLsbD_shiftLeft]
  by_cases hj : j < 2
  · simp [hj]
  · simp [zext, BitVec.getLsbD_of_ge lo j (by omega)]

/-- Settles O26: the mask of each axis is the two bits at its shift, so the low group is two bits of the status byte and
the assembly a concatenation, whose number is known. -/
theorem reconstructionArithmetic : Obligations.ReconstructionArithmetic := by
  intro h s mask k setting
  obtain ⟨hk, rfl⟩ : k ≤ 6 ∧ mask = 3#8 <<< k := by
    rcases setting with ⟨rfl, rfl⟩ | ⟨rfl, rfl⟩ | ⟨rfl, rfl⟩ <;> decide
  rw [lowGroup_eq_extract s hk]
  have group_toNat : ((s.extractLsb' k 2).setWidth 8).toNat = (s.extractLsb' k 2).toNat :=
    BitVec.toNat_setWidth_of_le (by omega)
  refine ⟨group_toNat, ?_, zext_shiftLeft_toNat h, zext_shiftLeft_and_group h _, rfl, assembleAccel_eq_append h _, ?_⟩
  · rw [group_toNat]
    exact Nat.le_of_lt_succ (s.extractLsb' k 2).isLt
  · rw [assembleAccel_eq_append, accel_toNat, group_toNat]

end Sys2Proof.Machine
end

section
/-! SUPPORT. The three accelerometer statements of 42_accelerometer.md R102 to R104, each from its axis as a concatenation
of a whole byte and two bits of byte 5, and the one function behind them (R105). -/

namespace Sys2Proof.Machine

/-- An accelerometer value is at most 1023 (42_accelerometer.md R101). -/
theorem accel_toNat_le (v : Accel) : v.toNat ≤ 1023 := Nat.le_of_lt_succ v.isLt

/-- The number `{hi8, lo2}` stands for, at given parts: the corner cases of 42_accelerometer.md R102 to R104 are its
instances. -/
theorem accel_toNat_of_parts {hi hi' : Byte} {lo lo' : BitVec 2} (hhi : hi = hi') (hlo : lo = lo') :
    (hi ++ lo : Accel).toNat = 4 * hi'.toNat + lo'.toNat := by
  rw [hhi, hlo, accel_toNat]

/-- `ACC_X` by its fields of the frame word (30_encoding.md R66). -/
theorem decAccX_eq_wordFields (f : Frame) :
    decAccX config f = f.toWord.extractLsb' 24 8 ++ f.toWord.extractLsb' 2 2 :=
  (decAccX_eq_append f).trans (congrArg (fun g => g.axh ++ g.axl) (fieldsOfWord_frame f)).symm

/-- `ACC_Y` by its fields of the frame word (30_encoding.md R66). -/
theorem decAccY_eq_wordFields (f : Frame) :
    decAccY config f = f.toWord.extractLsb' 16 8 ++ f.toWord.extractLsb' 4 2 :=
  (decAccY_eq_append f).trans (congrArg (fun g => g.ayh ++ g.ayl) (fieldsOfWord_frame f)).symm

/-- `ACC_Z` by its fields of the frame word (30_encoding.md R66). -/
theorem decAccZ_eq_wordFields (f : Frame) :
    decAccZ config f = f.toWord.extractLsb' 8 8 ++ f.toWord.extractLsb' 6 2 :=
  (decAccZ_eq_append f).trans (congrArg (fun g => g.azh ++ g.azl) (fieldsOfWord_frame f)).symm

/-- Settles O17: the axis is byte 2 before bits 3:2 of byte 5, which are its two fields of the frame word. -/
theorem accXReconstruction : Obligations.AccXReconstruction := by
  refine ⟨handsOver_of_decodeResult fun _ => rfl, fun f => ?_, fun f => ?_, fun f g hb hg => ?_, rfl, rfl⟩
  · exact ⟨decAccX_eq_append f, decAccX_eq_wordFields f, accel_toNat_le _⟩
  · rw [decAccX_eq_append]
    refine ⟨fun ⟨hb, hg⟩ => accel_toNat_of_parts hb hg, fun ⟨hb, hg⟩ => accel_toNat_of_parts hb hg, ?_, ?_, ?_, ?_⟩
    all_goals exact fun ⟨hb, hs⟩ => accel_toNat_of_parts hb (congrArg (·.extractLsb' 2 2) hs)
  · rw [decAccX_eq_append, decAccX_eq_append, hb, hg]

/-- Settles O18: the axis is byte 3 before bits 5:4 of byte 5, which are its two fields of the frame word. -/
theorem accYReconstruction : Obligations.AccYReconstruction := by
  refine ⟨handsOver_of_decodeResult fun _ => rfl, fun f => ?_, fun f => ?_, fun f g hb hg => ?_, rfl, rfl⟩
  · exact ⟨decAccY_eq_append f, decAccY_eq_wordFields f, accel_toNat_le _⟩
  · rw [decAccY_eq_append]
    refine ⟨fun ⟨hb, hg⟩ => accel_toNat_of_parts hb hg, fun ⟨hb, hg⟩ => accel_toNat_of_parts hb hg, ?_, ?_, ?_, ?_, ?_⟩
    all_goals exact fun ⟨hb, hs⟩ => accel_toNat_of_parts hb (congrArg (·.extractLsb' 4 2) hs)
  · rw [decAccY_eq_append, decAccY_eq_append, hb, hg]

/-- Settles O19: the axis is byte 4 before bits 7:6 of byte 5, which are its two fields of the frame word. -/
theorem accZReconstruction : Obligations.AccZReconstruction := by
  refine ⟨handsOver_of_decodeResult fun _ => rfl, fun f => ?_, fun f => ?_, fun f g hb hg => ?_, rfl, rfl⟩
  · exact ⟨decAccZ_eq_append f, decAccZ_eq_wordFields f, accel_toNat_le _⟩
  · rw [decAccZ_eq_append]
    refine ⟨fun ⟨hb, hg⟩ => accel_toNat_of_parts hb hg, fun ⟨hb, hg⟩ => accel_toNat_of_parts hb hg, ?_, ?_, ?_, ?_, ?_⟩
    all_goals exact fun ⟨hb, hs⟩ => accel_toNat_of_parts hb (congrArg (·.extractLsb' 6 2) hs)
  · rw [decAccZ_eq_append, decAccZ_eq_append, hb, hg]

/-- Settles O29: the source's constants are the three settings of the one function. -/
theorem axesAreOneFunction : Obligations.AxesAreOneFunction := fun _ => ⟨rfl, rfl, rfl⟩

end Sys2Proof.Machine
end

section
/-! SUPPORT. The two button statements of 43_buttons.md R111 and R112, each from its Boolean as an inverted bit of byte 5,
which is a one-bit field of the frame word. -/

namespace Sys2Proof.Machine

/-- `BTN_Z` by the field `BZ` of the frame word (30_encoding.md R66). -/
theorem decBtnZ_eq_wordField (f : Frame) : decBtnZ config f = (f.toWord.extractLsb' 0 1 == 0) := by
  have field_bz : f.toWord.extractLsb' 0 1 = f.b5.extractLsb' 0 1 := congrArg FrameFields.bz (fieldsOfWord_frame f)
  rw [decBtnZ_eq_not_bit, field_bz]
  exact not_getLsbD_eq_extract f.b5 0

/-- `BTN_C` by the field `BC` of the frame word (30_encoding.md R66). -/
theorem decBtnC_eq_wordField (f : Frame) : decBtnC config f = (f.toWord.extractLsb' 1 1 == 0) := by
  have field_bc : f.toWord.extractLsb' 1 1 = f.b5.extractLsb' 1 1 := congrArg FrameFields.bc (fieldsOfWord_frame f)
  rw [decBtnC_eq_not_bit, field_bc]
  exact not_getLsbD_eq_extract f.b5 1

/-- Settles O20: the decode function is bit 0 of byte 5 inverted, which is the field `BZ` of the frame word. -/
theorem btnZIsInvertedBitZero : Obligations.BtnZIsInvertedBitZero := by
  refine ⟨handsOver_of_decodeResult fun _ => rfl, fun f => ?_, fun f => ?_, fun f g h => ?_, rfl, rfl, rfl, rfl, rfl⟩
  · exact ⟨decBtnZ_eq_not_bit f, decBtnZ_eq_wordField f⟩
  · rw [decBtnZ_eq_not_bit]
    refine ⟨?_, ?_, ?_, ?_⟩
    all_goals exact congrArg fun s : Byte => !s.getLsbD 0
  · rw [decBtnZ_eq_not_bit, decBtnZ_eq_not_bit, h]

/-- Settles O21: the decode function is bit 1 of byte 5 inverted, which is the field `BC` of the frame word. -/
theorem btnCIsInvertedBitOne : Obligations.BtnCIsInvertedBitOne := by
  refine ⟨handsOver_of_decodeResult fun _ => rfl, fun f => ?_, fun f => ?_, fun f g h => ?_, rfl, rfl, rfl, rfl, rfl⟩
  · exact ⟨decBtnC_eq_not_bit f, decBtnC_eq_wordField f⟩
  · rw [decBtnC_eq_not_bit]
    refine ⟨?_, ?_, ?_, ?_⟩
    all_goals exact congrArg fun s : Byte => !s.getLsbD 1
  · rw [decBtnC_eq_not_bit, decBtnC_eq_not_bit, h]

end Sys2Proof.Machine
end

section
/-! SUPPORT. The decode operations raise nothing (60_exceptions.md R116): each has a value on every frame, and that value
is never an exception. -/

namespace Sys2Proof.Machine

/-- A decode operation has a value on every frame (41_joystick.md R95). -/
theorem exists_decodeResult (c : Config) {i : Instr} (hi : i.isDecode = true) (f : Frame) :
    ∃ r, decodeResult c i f = some r := by
  cases i with
  | init | read => cases hi
  | joyX | joyY | accX | accY | accZ | btnZ | btnC => exact ⟨_, rfl⟩

/-- A decoded value is never the outcome TransportError, which belongs to INIT and READ (60_exceptions.md R115). -/
theorem decodeResult_ne_transportError (c : Config) (i : Instr) (f : Frame) (op : SeqOp) :
    decodeResult c i f ≠ some (.transportError op) := by
  cases i <;> nofun

/-- Settles O22: the value every decode operation has on the held frame is the only thing the next state does not share
with the old one, and it is no exception. -/
theorem decodeRaisesNothing : Obligations.DecodeRaisesNothing := by
  intro i s hi hbusy hfv
  obtain ⟨r, hr⟩ := exists_decodeResult config hi s.x
  have completes : exec i s = .next { s with result := some r } :=
    (exec_decode_next hi).2 ⟨hbusy, hfv, r, hr, rfl⟩
  have no_exception : ∀ op, r ≠ .transportError op := by
    rintro op rfl
    exact decodeResult_ne_transportError config i s.x op hr
  exact ⟨_, r, completes, rfl, hr, no_exception, rfl⟩

end Sys2Proof.Machine
end

section
/-! SUPPORT. The history invariant: what each shared operation does to the history of calls and to the fields that the
history determines, and the statements that every step, at any constants, and every run keep it. -/

namespace Sys2Proof.Machine

/-! ### What the order of operations says of the newest call -/

/-- When a handshake may stand at the head of the list: before any INIT ended `Ok`, after an ended operation. -/
theorem legalBus_write {c : Config} {tx : Transaction} {a : Option WriteAnswer} {l : List Call} :
    legalBus c (.write tx a :: l) = true ↔
      tx = SeqOp.transaction c .init ∧ initEndedOk l = false ∧ openOperation l = none ∧ legalBus c l = true := by
  simp [legalBus, and_assoc]

/-- When a frame fetch may stand at the head of the list: after an INIT ended `Ok`, after an ended operation. -/
theorem legalBus_read {c : Config} {tx : Transaction} {a : Option ReadAnswer} {l : List Call} :
    legalBus c (.writeThenRead tx a :: l) = true ↔
      tx = SeqOp.transaction c .read ∧ initEndedOk l = true ∧ openOperation l = none ∧ legalBus c l = true := by
  simp [legalBus, and_assoc]

/-- An INIT in progress is an unanswered handshake at the head of the list. -/
theorem exists_of_openOperation_init {l : List Call} (h : openOperation l = some .init) :
    ∃ tx rest, l = .write tx none :: rest := by
  match l, h with
  | .write tx none :: rest, _ => exact ⟨tx, rest, rfl⟩

/-- A READ in progress is an unanswered frame fetch at the head of the list. -/
theorem exists_of_openOperation_read {l : List Call} (h : openOperation l = some .read) :
    ∃ tx rest, l = .writeThenRead tx none :: rest := by
  match l, h with
  | .writeThenRead tx none :: rest, _ => exact ⟨tx, rest, rfl⟩

/-! ### What keeps the invariant -/

variable {c : Config} {s t : State}

/-- The invariant does not speak of the result, nor of what the host and the Transport have yet to say. -/
theorem HistoryInv.withOutside (h : HistoryInv c s) (result : Option Result) (host : List HostEvent)
    (writes : List WriteAnswer) (reads : List ReadAnswer) :
    HistoryInv c { s with result := result, host := host, writeAnswers := writes, readAnswers := reads } :=
  ⟨h.legal, h.rdy, h.fv, h.x, h.te, h.busy⟩

/-- The state RESET leaves has no history and nothing to say about one. -/
theorem historyInv_applyReset (c : Config) (s : State) : HistoryInv c s.applyReset :=
  ⟨rfl, rfl, rfl, nofun, rfl, rfl⟩

/-- The call of an admitted operation is the next of the grammar (40_sequencer.md R87) and changes no flag. -/
theorem HistoryInv.startCall {op : SeqOp} (h : HistoryInv c s) (hadm : s.admits op) :
    HistoryInv c (s.startCall c op) := by
  obtain ⟨hlegal, hrdy, hfv, hx, hte, hbusy⟩ := h
  cases op with
  | init =>
    obtain ⟨hidle, hready⟩ := hadm
    exact ⟨legalBus_write.2 ⟨rfl, hrdy ▸ hready, hbusy ▸ hidle, hlegal⟩, hrdy, hfv, hx, hte, rfl⟩
  | read =>
    obtain ⟨hidle, hready⟩ := hadm
    exact ⟨legalBus_read.2 ⟨rfl, hrdy ▸ hready, hbusy ▸ hidle, hlegal⟩, hrdy, hfv, hx, hte, rfl⟩

/-- The end of INIT turns the unanswered handshake into the answered one, and RDY and TE into what that says. -/
theorem HistoryInv.commitInit (h : HistoryInv c s) (hb : s.busy = some .init) (a : WriteAnswer) :
    HistoryInv c (State.commitInit c a s) := by
  obtain ⟨hlegal, hrdy, hfv, hx, -, hbusy⟩ := h
  obtain ⟨tx, rest, hbus⟩ := exists_of_openOperation_init (hbusy ▸ hb)
  rw [hbus] at hlegal hrdy hfv hx
  have ended : legalBus c (.write (SeqOp.transaction c .init) (some a) :: rest) = true :=
    legalBus_write.2 ⟨rfl, (legalBus_write.1 hlegal).2⟩
  cases a with
  | ok => rw [commitInit_ok, hbus]; exact ⟨ended, rfl, hfv, hx, rfl, rfl⟩
  | err => rw [commitInit_err, hbus]; exact ⟨ended, hrdy, hfv, hx, rfl, rfl⟩

/-- The end of READ turns the unanswered frame fetch into the answered one, and `x`, FV and TE into what that says; on
`Err` the last good frame stays (92_eei_decisions.md D8). -/
theorem HistoryInv.commitRead (h : HistoryInv c s) (hb : s.busy = some .read) (a : ReadAnswer) :
    HistoryInv c (State.commitRead c a s) := by
  obtain ⟨hlegal, hrdy, hfv, hx, -, hbusy⟩ := h
  obtain ⟨tx, rest, hbus⟩ := exists_of_openOperation_read (hbusy ▸ hb)
  rw [hbus] at hlegal hrdy hfv hx
  have ended : legalBus c (.writeThenRead (SeqOp.transaction c .read) (some a) :: rest) = true :=
    legalBus_read.2 ⟨rfl, (legalBus_read.1 hlegal).2⟩
  cases a with
  | ok b => rw [commitRead_ok, hbus]; exact ⟨ended, hrdy, rfl, fun _ => Option.some.inj, rfl, rfl⟩
  | err => rw [commitRead_err, hbus]; exact ⟨ended, hrdy, hfv, hx, rfl, rfl⟩

/-- Taking an answer keeps the invariant. -/
theorem HistoryInv.settle (h : HistoryInv c s) (hs : s.settle c = some t) : HistoryInv c t := by
  rcases settle_cases hs with ⟨hb, a, rest, _, rfl⟩ | ⟨hb, a, rest, _, rfl⟩
  · exact (h.withOutside s.result s.host rest s.readAnswers).commitInit hb a
  · exact (h.withOutside s.result s.host s.writeAnswers rest).commitRead hb a

/-- A call of the Transport is the call going out and, where the answer is there, taking it. -/
theorem HistoryInv.callTransport {op : SeqOp} (h : HistoryInv c s) (hadm : s.admits op) :
    HistoryInv c (s.callTransport c op) := by
  rw [State.callTransport]
  cases hs : (s.startCall c op).settle c with
  | none => exact h.startCall hadm
  | some t => exact (h.startCall hadm).settle hs

/-- Every operation keeps the invariant, at any constants. -/
theorem HistoryInv.execAt {i : Instr} (h : HistoryInv c s) (he : execAt c i s = .next t) : HistoryInv c t := by
  obtain ⟨hidle, ⟨_, hready, rfl⟩ | ⟨_, hready, rfl⟩ | ⟨_, _, r, _, rfl⟩⟩ := execAt_next_cases he
  · exact h.callTransport (op := .init) ⟨hidle, hready⟩
  · exact h.callTransport (op := .read) ⟨hidle, hready⟩
  · exact h.withOutside (some r) s.host s.writeAnswers s.readAnswers

/-- Every step keeps the invariant, at any constants. -/
theorem HistoryInv.stepAt (h : HistoryInv c s) (hstep : stepAt c s = .next t) : HistoryInv c t := by
  rcases stepAt_next_cases hstep with hs | ⟨_, i, rest, _, he⟩ | ⟨_, rest, _, rfl⟩ | ⟨_, _, rfl⟩
  · exact h.settle hs
  · exact (h.withOutside s.result rest s.writeAnswers s.readAnswers).execAt he
  · exact historyInv_applyReset c _
  · exact h

/-- What every step keeps, every run keeps. -/
theorem runAt_keeps {P : State → Prop} (hP : ∀ s t, P s → stepAt c s = .next t → P t) (k : Nat)
    (hs : P s) (hrun : (modelAt c).run k s = .next t) : P t := by
  induction k generalizing s with
  | zero => cases hrun; exact hs
  | succ k ih =>
    cases h : stepAt c s with
    | next u => exact ih (hP s u hs h) (runAt_next h ▸ hrun)
    | fault f => cases (runAt_fault h).symm.trans hrun
    | refused r => cases (runAt_refused h).symm.trans hrun

end Sys2Proof.Machine
end

section
/-! SUPPORT. The statements about the history invariant, each from what keeps it. -/

namespace Sys2Proof.Machine

/-- Settles O52: the reset state has no history and nothing to say about one. -/
theorem historyInvariantAtReset : Obligations.HistoryInvariantAtReset :=
  ⟨rfl, rfl, rfl, nofun, rfl, rfl⟩

/-- Settles O59: a step takes an answer, runs an operation, resets or idles, and each keeps the invariant. -/
theorem historyInvariantAtAnyConstants : Obligations.HistoryInvariantAtAnyConstants :=
  fun _ _ _ h hstep => h.stepAt hstep

/-- Settles O53, the step at the source's constants. -/
theorem everyStepKeepsHistoryInvariant : Obligations.EveryStepKeepsHistoryInvariant :=
  historyInvariantAtAnyConstants config

/-- Settles O54, by induction on the number of steps. -/
theorem everyRunKeepsHistoryInvariant : Obligations.EveryRunKeepsHistoryInvariant :=
  fun k _ _ => runAt_keeps everyStepKeepsHistoryInvariant k

end Sys2Proof.Machine
end

section
/-! SUPPORT. Two machines side by side: a relation of states that every shared operation keeps is kept by every step and
every run, with the same stops. The two noninterference statements are its two instances: the frame register file while
no frame is held (10_state.md R33), and the constants seen on the bus only (00_scope.md R8). -/

namespace Sys2Proof.Machine

/-! ### Related states and outcomes -/

/-- Two outcomes whose next states are related; a fault or a refusal is the same one. -/
def outcomesAgree (R : State → State → Prop) :
    Host.Outcome State Fault Refusal → Host.Outcome State Fault Refusal → Prop
  | .next s, .next t => R s t
  | .fault a, .fault b => a = b
  | .refused a, .refused b => a = b
  | _, _ => False

/-- A relation between the states of the machine at `c` and of the machine at `c'` that fixes all a step decides by, and
that every shared operation keeps. -/
structure KeptByOperations (c c' : Config) (R : State → State → Prop) : Prop where
  control : ∀ {s t}, R s t → t.busy = s.busy ∧ t.rdy = s.rdy ∧ t.fv = s.fv ∧ t.host = s.host ∧
    t.writeAnswers = s.writeAnswers ∧ t.readAnswers = s.readAnswers
  withHost : ∀ {s t}, R s t → ∀ host, R { s with host := host } { t with host := host }
  startCall : ∀ {s t}, R s t → ∀ op, R (s.startCall c op) (t.startCall c' op)
  commitInit : ∀ {s t}, R s t → ∀ a rest,
    R (State.commitInit c a { s with writeAnswers := rest }) (State.commitInit c' a { t with writeAnswers := rest })
  commitRead : ∀ {s t}, R s t → ∀ a rest,
    R (State.commitRead c a { s with readAnswers := rest }) (State.commitRead c' a { t with readAnswers := rest })
  decoded : ∀ {s t}, R s t → s.fv = true → ∀ i, decodeResult c' i t.x = decodeResult c i s.x
  withResult : ∀ {s t}, R s t → ∀ result, R { s with result := result } { t with result := result }
  applyReset : ∀ {s t}, R s t → R s.applyReset t.applyReset

/-- A decode operation samples its own decode function. -/
theorem execAt_eq_sample {c : Config} {i : Instr} {s : State} (hi : i.isDecode = true) :
    ∃ dec, (∀ f, decodeResult c i f = some (dec f)) ∧ execAt c i s = s.sample dec := by
  rcases execAt_forms c i s with ⟨rfl, _⟩ | ⟨rfl, _⟩ | ⟨_, hdec⟩
  · cases hi
  · cases hi
  · exact hdec

section

variable {c c' : Config} {R : State → State → Prop} {s t : State}

namespace KeptByOperations

/-- The answer to an operation's call has come on both sides or on neither. -/
theorem unanswered (hR : KeptByOperations c c' R) (h : R s t) {op : SeqOp} (hu : s.unanswered op) :
    t.unanswered op := by
  obtain ⟨-, -, -, -, hwrites, hreads⟩ := hR.control h
  cases op with
  | init => exact hwrites.trans hu
  | read => exact hreads.trans hu

/-- Both machines take an answer, or neither does. -/
theorem settle (hR : KeptByOperations c c' R) (h : R s t) :
    (s.settle c = none ∧ t.settle c' = none) ∨
    ∃ u v, s.settle c = some u ∧ t.settle c' = some v ∧ R u v := by
  obtain ⟨hbusy, -, -, -, hwrites, hreads⟩ := hR.control h
  cases hs : s.settle c with
  | none =>
    refine .inl ⟨rfl, settle_none_iff.2 ?_⟩
    rcases settle_none_iff.1 hs with hb | ⟨op, hb, hu⟩
    · exact .inl (hbusy.trans hb)
    · exact .inr ⟨op, hbusy.trans hb, hR.unanswered h hu⟩
  | some u =>
    rcases settle_cases hs with ⟨hb, a, rest, ha, rfl⟩ | ⟨hb, a, rest, ha, rfl⟩
    · exact .inr ⟨_, _, rfl, settle_init (hbusy.trans hb) (hwrites.trans ha), hR.commitInit h a rest⟩
    · exact .inr ⟨_, _, rfl, settle_read (hbusy.trans hb) (hreads.trans ha), hR.commitRead h a rest⟩

/-- A call of the Transport keeps the relation. -/
theorem callTransport (hR : KeptByOperations c c' R) (h : R s t) (op : SeqOp) :
    R (s.callTransport c op) (t.callTransport c' op) := by
  rw [State.callTransport, State.callTransport]
  rcases hR.settle (hR.startCall h op) with ⟨hs, ht⟩ | ⟨u, v, hs, ht, huv⟩
  · rw [hs, ht]
    exact hR.startCall h op
  · rw [hs, ht]
    exact huv

/-- A sequencer operation is admitted on both sides or refused by the same name. -/
theorem sequence (hR : KeptByOperations c c' R) (h : R s t) (op : SeqOp) (need : Bool) (why : Refusal) :
    outcomesAgree R (s.sequence c op need why) (t.sequence c' op need why) := by
  obtain ⟨hbusy, hrdy, -⟩ := hR.control h
  rw [State.sequence, State.sequence, hbusy, hrdy]
  split_ifs
  · rfl
  · exact hR.callTransport h op
  · rfl

/-- Decode functions with the same value on the two held frames hand over related states, or are refused by the same
name. -/
theorem sampled (hR : KeptByOperations c c' R) (h : R s t) {dec dec' : Frame → Result}
    (hdec : s.fv = true → dec' t.x = dec s.x) : outcomesAgree R (s.sample dec) (t.sample dec') := by
  obtain ⟨hbusy, -, hfv, -⟩ := hR.control h
  cases hb : s.busy with
  | some op =>
    have waits : s.busy.isSome = true := by rw [hb]; rfl
    rw [sample_refused.2 (.inl ⟨waits, rfl⟩), sample_refused.2 (.inl ⟨hbusy ▸ waits, rfl⟩)]
    rfl
  | none =>
    cases hv : s.fv with
    | false =>
      rw [sample_refused.2 (.inr ⟨hb, hv, rfl⟩), sample_refused.2 (.inr ⟨hbusy.trans hb, hfv.trans hv, rfl⟩)]
      rfl
    | true =>
      rw [sample_next.2 ⟨hb, hv, rfl⟩, sample_next.2 ⟨hbusy.trans hb, hfv.trans hv, rfl⟩, hdec hv]
      exact hR.withResult h _

/-- An operation answers related states or is refused by the same name. -/
theorem execAt (hR : KeptByOperations c c' R) (h : R s t) (i : Instr) :
    outcomesAgree R (execAt c i s) (execAt c' i t) := by
  rcases execAt_forms c i s with ⟨rfl, _⟩ | ⟨rfl, _⟩ | ⟨hi, dec, hdec, hs⟩
  · exact hR.sequence h .init false .initWhenReady
  · exact hR.sequence h .read true .readBeforeInit
  · obtain ⟨dec', hdec', ht⟩ := execAt_eq_sample (c := c') (s := t) hi
    rw [hs, ht]
    refine hR.sampled h fun hfv => Option.some.inj ?_
    rw [← hdec', ← hdec, hR.decoded h hfv]

/-- RESET is applied on both sides or refused. -/
theorem hostReset (hR : KeptByOperations c c' R) (h : R s t) : outcomesAgree R s.hostReset t.hostReset := by
  obtain ⟨hbusy, -⟩ := hR.control h
  rw [State.hostReset, State.hostReset, hbusy]
  split_ifs
  · rfl
  · exact hR.applyReset h

/-- A step answers related states or stops in the same way. -/
theorem stepAt (hR : KeptByOperations c c' R) (h : R s t) : outcomesAgree R (stepAt c s) (stepAt c' t) := by
  obtain ⟨hbusy, -, -, hhost, -⟩ := hR.control h
  rcases hR.settle h with ⟨hs, ht⟩ | ⟨u, v, hs, ht, huv⟩
  · match hh : s.host with
    | .issue i :: rest =>
      rw [stepAt_issue hs hh, stepAt_issue ht (hhost.trans hh)]
      exact hR.execAt (hR.withHost h rest) i
    | .reset :: rest =>
      rw [stepAt_reset hs hh, stepAt_reset ht (hhost.trans hh)]
      exact hR.hostReset (hR.withHost h rest)
    | [] =>
      rcases settle_none_iff.1 hs with hb | ⟨op, hb, hu⟩
      · rw [stepAt_idle hb hh, stepAt_idle (hbusy.trans hb) (hhost.trans hh)]
        exact h
      · rw [stepAt_stuck hb hu hh, stepAt_stuck (hbusy.trans hb) (hR.unanswered h hu) (hhost.trans hh)]
        rfl
  · rw [stepAt_settle hs, stepAt_settle ht]
    exact huv

/-- A run answers related states or stops in the same way. -/
theorem run (hR : KeptByOperations c c' R) (k : Nat) (h : R s t) :
    outcomesAgree R ((modelAt c).run k s) ((modelAt c').run k t) := by
  induction k generalizing s t with
  | zero => exact h
  | succ k ih =>
    have hstep := hR.stepAt h
    match hs : Machine.stepAt c s, ht : Machine.stepAt c' t, hstep with
    | .next u, .next v, huv =>
      rw [runAt_next hs, runAt_next ht]
      exact ih huv
    | .fault f, .fault g, hfg =>
      rw [runAt_fault hs, runAt_fault ht]
      exact hfg
    | .refused p, .refused q, hpq =>
      rw [runAt_refused hs, runAt_refused ht]
      exact hpq

end KeptByOperations

end

end Sys2Proof.Machine
end

section
/-! SUPPORT. The two noninterference statements: the frame register file while no frame is held (10_state.md R33), and
the constants seen on the bus only (00_scope.md R8). Each is a relation that every shared operation keeps. -/

namespace Sys2Proof.Machine

/-- `outcomesAgree` of states that differ at most in the list of transactions is `agreeButBus`. -/
theorem agreeButBus_of_outcomesAgree {o p : Host.Outcome State Fault Refusal} (h : outcomesAgree sameButBus o p) :
    agreeButBus o p := by
  match o, p, h with
  | .next _, .next _, h => exact h
  | .fault _, .fault _, h => exact h
  | .refused _, .refused _, h => exact h

/-- Two states that differ at most in a frame register file that holds no frame. -/
def sameButUnheldFrame (s t : State) : Prop := sameButFrame s t ∧ (s.fv = true → s = t)

/-- `outcomesAgree` of states that differ at most in an unheld frame is `agreeButUnheldFrame`. -/
theorem agreeButUnheldFrame_of_outcomesAgree {o p : Host.Outcome State Fault Refusal}
    (h : outcomesAgree sameButUnheldFrame o p) : agreeButUnheldFrame o p := by
  match o, p, h with
  | .next _, .next _, h => exact h
  | .fault _, .fault _, h => exact h
  | .refused _, .refused _, h => exact h

/-- States that differ at most in an unheld frame are one state with two frame register files, the same where a frame is
held. -/
theorem sameButUnheldFrame_iff {s t : State} :
    sameButUnheldFrame s t ↔ ∃ g, t = { s with x := g } ∧ (s.fv = true → s.x = g) := by
  constructor
  · rintro ⟨hsame, hheld⟩
    exact ⟨t.x, hsame, fun hfv => congrArg State.x (hheld hfv)⟩
  · rintro ⟨g, rfl, hheld⟩
    exact ⟨rfl, fun hfv => by rw [← hheld hfv]⟩

/-- No operation looks at an unheld frame, and a READ that ends `Ok` replaces it whole (10_state.md R33). -/
theorem sameButUnheldFrame_kept (c : Config) : KeptByOperations c c sameButUnheldFrame where
  control h := by
    obtain ⟨g, rfl, _⟩ := sameButUnheldFrame_iff.1 h
    exact ⟨rfl, rfl, rfl, rfl, rfl, rfl⟩
  withHost h host := by
    obtain ⟨g, rfl, hheld⟩ := sameButUnheldFrame_iff.1 h
    exact sameButUnheldFrame_iff.2 ⟨g, rfl, hheld⟩
  startCall h op := by
    obtain ⟨g, rfl, hheld⟩ := sameButUnheldFrame_iff.1 h
    exact sameButUnheldFrame_iff.2 ⟨g, rfl, hheld⟩
  commitInit h a rest := by
    obtain ⟨g, rfl, hheld⟩ := sameButUnheldFrame_iff.1 h
    cases a with
    | ok | err => exact sameButUnheldFrame_iff.2 ⟨g, rfl, hheld⟩
  commitRead h a rest := by
    obtain ⟨g, rfl, hheld⟩ := sameButUnheldFrame_iff.1 h
    cases a with
    | ok b => exact sameButUnheldFrame_iff.2 ⟨b, rfl, fun _ => rfl⟩
    | err => exact sameButUnheldFrame_iff.2 ⟨g, rfl, hheld⟩
  decoded h hfv i := by rw [h.2 hfv]
  withResult h result := by
    obtain ⟨g, rfl, hheld⟩ := sameButUnheldFrame_iff.1 h
    exact sameButUnheldFrame_iff.2 ⟨g, rfl, hheld⟩
  applyReset h := by
    obtain ⟨g, rfl, hheld⟩ := sameButUnheldFrame_iff.1 h
    exact sameButUnheldFrame_iff.2 ⟨_, rfl, fun _ => rfl⟩

/-- No operation looks at the list of transactions, and only its entries hold the address and the payloads. -/
theorem sameButBus_kept (c : Config) (addr : DevAddr) (handshake request : Byte) :
    KeptByOperations c { c with devAddr := addr, handshakeByte := handshake, requestByte := request } sameButBus where
  control h := by rw [h]; exact ⟨rfl, rfl, rfl, rfl, rfl, rfl⟩
  withHost h host := by rw [h]; rfl
  startCall h op := by rw [h]; rfl
  commitInit h a rest := by rw [h]; cases a <;> rfl
  commitRead h a rest := by rw [h]; cases a <;> rfl
  decoded h _ i := by rw [h]; cases i <;> rfl
  withResult h result := by rw [h]; rfl
  applyReset h := by rw [h]; rfl

/-- Settles O56: the two runs start in states that differ at most in an unheld frame, which every step keeps. -/
theorem unheldFrameIsUnobservable : Obligations.UnheldFrameIsUnobservable := by
  intro k s g hfv
  have start : sameButUnheldFrame s { s with x := g } := ⟨rfl, fun hheld => absurd hheld (by simp [hfv])⟩
  exact agreeButUnheldFrame_of_outcomesAgree ((sameButUnheldFrame_kept config).run k start)

/-- Settles O60: the two runs start in states that differ at most in the list of transactions, which every step keeps at
constants that differ on the bus only. -/
theorem constantsShowOnTheBusOnly : Obligations.ConstantsShowOnTheBusOnly := by
  intro k c addr handshake request s bus
  have start : sameButBus s { s with bus := bus } := rfl
  exact agreeButBus_of_outcomesAgree ((sameButBus_kept c addr handshake request).run k start)

end Sys2Proof.Machine
end

section
/-! SUPPORT. The encodings of the operations: which descriptors, rows, bytes and names are an operation's
(30_encoding.md R69, R74, R77, R78), and the packing of a frame (R65). -/

namespace Sys2Proof.Machine

/-! ### Every operation's own encodings -/

/-- Every operation's encodings lead back to it. -/
theorem roundTrip (i : Instr) : Laws.RoundTrip.Statement i := by
  cases i with
  | init => exact Laws.RoundTrip.init
  | read => exact Laws.RoundTrip.read
  | joyX => exact Laws.RoundTrip.joyX
  | joyY => exact Laws.RoundTrip.joyY
  | accX => exact Laws.RoundTrip.accX
  | accY => exact Laws.RoundTrip.accY
  | accZ => exact Laws.RoundTrip.accZ
  | btnZ => exact Laws.RoundTrip.btnZ
  | btnC => exact Laws.RoundTrip.btnC

/-- A row of the opcode table leads back to its operation. -/
theorem decodeEncoding_encode (i : Instr) : decodeEncoding config (encode config i) = .instr i :=
  (roundTrip i).2.1

/-- A mnemonic names its operation. -/
theorem ofMnemonic_mnemonic (i : Instr) : Instr.ofMnemonic i.mnemonic = some i :=
  (roundTrip i).2.2.1

/-! ### Descriptors -/

/-- A descriptor is `{addr, byte}` (30_encoding.md R68). -/
theorem descriptor_eq_append (td : Descriptor) : td.extractLsb' 8 7 ++ td.extractLsb' 0 8 = td := by
  rw [BitVec.extractLsb'_append_extractLsb'_eq_extractLsb' (by omega), BitVec.extractLsb'_eq_self]

/-- A descriptor that is an operation's is `{DEV_ADDR, HANDSHAKE_BYTE}` for INIT and `{DEV_ADDR, REQUEST_BYTE}` for READ
(30_encoding.md R69). -/
theorem decodeDescriptor_instr {c : Config} {td : Descriptor} {i : Instr} (h : decodeDescriptor c td = .instr i) :
    (i = .init ∧ td = c.devAddr ++ c.handshakeByte) ∨ (i = .read ∧ td = c.devAddr ++ c.requestByte) := by
  unfold decodeDescriptor at h
  split_ifs at h with haddr hinit hread
  · cases h
    exact .inl ⟨rfl, by rw [← not_not.1 haddr, ← hinit, descriptor_eq_append]⟩
  · cases h
    exact .inr ⟨rfl, by rw [← not_not.1 haddr, ← hread, descriptor_eq_append]⟩

/-- Bit k of a descriptor's two bytes joined, the high byte's bit 7 being no part of it. -/
theorem descriptorOfBytes_getLsbD (hi lo : Byte) (k : Nat) :
    ((hi ++ lo).setWidth 15 : Descriptor).getLsbD k =
      (decide (k < 15) && if k < 8 then lo.getLsbD k else hi.getLsbD (k - 8)) := by
  rw [BitVec.getLsbD_setWidth, bit_append]

/-- The bytes of a descriptor are read as that descriptor. -/
theorem decode_descriptorBytes (c : Config) (td : Descriptor) :
    decode c (descriptorBytes td) = decodeDescriptor c td := by
  have high_clear : ((td.extractLsb' 8 7).setWidth 8).getLsbD 7 = false := by
    rw [BitVec.getLsbD_setWidth, BitVec.getLsbD_of_ge _ 7 (by omega), Bool.and_false]
  have joined : (((td.extractLsb' 8 7).setWidth 8 ++ td.extractLsb' 0 8).setWidth 15 : Descriptor) = td := by
    refine BitVec.eq_of_getLsbD_eq fun k hk => ?_
    rw [descriptorOfBytes_getLsbD]
    by_cases h : k < 8
    · simp [h, hk]
    · simp [h, hk, show k - 8 < 8 by omega, show k - 8 < 7 by omega, show 8 + (k - 8) = k by omega]
  simp only [descriptorBytes, decode, high_clear, joined]
  rfl

/-- Two bytes with bit 15 clear are the bytes of the descriptor they are read as. -/
theorem descriptorBytes_ofBytes {hi lo : Byte} (h : hi.getLsbD 7 = false) :
    descriptorBytes ((hi ++ lo).setWidth 15) = [lo, hi] := by
  have low : ((hi ++ lo).setWidth 15 : Descriptor).extractLsb' 0 8 = lo :=
    extractLsb'_eq_of_getLsbD fun j hj => by
      rw [descriptorOfBytes_getLsbD]
      simp [hj, show j < 15 by omega]
  have high : (((hi ++ lo).setWidth 15 : Descriptor).extractLsb' 8 7).setWidth 8 = hi := by
    refine BitVec.eq_of_getLsbD_eq fun j hj => ?_
    rw [BitVec.getLsbD_setWidth, BitVec.getLsbD_extractLsb', descriptorOfBytes_getLsbD]
    by_cases hj7 : j = 7
    · rw [hj7, h]
      simp
    · simp [hj, show j < 7 by omega, show 8 + j < 15 by omega]
  rw [descriptorBytes, low, high]

/-- Bytes that are an operation's are those of its descriptor. -/
theorem decode_instr {c : Config} {bs : List Byte} {i : Instr} (h : decode c bs = .instr i) :
    ∃ td, bs = descriptorBytes td ∧ decodeDescriptor c td = .instr i := by
  unfold decode at h
  split at h
  · next lo hi =>
    split_ifs at h with high
    exact ⟨_, (descriptorBytes_ofBytes (Bool.eq_false_iff.2 high)).symm, h⟩
  · cases h
  · cases h

/-! ### Rows and mnemonics -/

/-- A row of the opcode table that is an operation's is the one it encodes to. -/
theorem eq_encode_of_decodeEncoding {e : Encoding} {i : Instr} (h : decodeEncoding config e = .instr i) :
    e = encode config i := by
  cases e with
  | busW1 td =>
    rw [decodeEncoding] at h
    split at h
    · cases h
    · next hd =>
      rcases decodeDescriptor_instr h with ⟨rfl, rfl⟩ | ⟨rfl, rfl⟩
      · rfl
      · exact (hd h).elim
  | busW1R6 td =>
    rw [decodeEncoding] at h
    split at h
    · cases h
    · next hd =>
      rcases decodeDescriptor_instr h with ⟨rfl, rfl⟩ | ⟨rfl, rfl⟩
      · exact (hd h).elim
      · rfl
  | frame48 m =>
    rw [decodeEncoding] at h
    split_ifs at h with hm hm hm hm hm hm hm
    all_goals
      cases h
      rw [hm]
      rfl

/-- Bytes are an operation's exactly when they are those it encodes to (30_encoding.md R69, R74). -/
theorem encodeBytes_eq_some_iff {i : Instr} {bs : List Byte} :
    encodeBytes config i = some bs ↔ decode config bs = .instr i := by
  constructor
  · intro h
    cases i with
    | init | read => cases h; rw [decode_descriptorBytes]; decide
    | joyX | joyY | accX | accY | accZ | btnZ | btnC => cases h
  · intro h
    obtain ⟨td, rfl, htd⟩ := decode_instr h
    rcases decodeDescriptor_instr htd with ⟨rfl, rfl⟩ | ⟨rfl, rfl⟩
    · rfl
    · rfl

/-- A name is an operation's exactly when it is its mnemonic (30_encoding.md R78). -/
theorem ofMnemonic_eq_some_iff {m : String} {i : Instr} : Instr.ofMnemonic m = some i ↔ m = i.mnemonic := by
  constructor
  · intro h
    unfold Instr.ofMnemonic at h
    split_ifs at h with hm hm hm hm hm hm hm hm hm
    all_goals
      cases h
      exact hm
  · rintro rfl
    exact ofMnemonic_mnemonic i

/-! ### Frames -/

/-- A frame's word holds its bytes at their places (30_encoding.md R65). -/
theorem ofWord_toWord (f : Frame) : Frame.ofWord f.toWord = f := by
  cases f
  simp only [Frame.ofWord, Frame.mk.injEq]
  refine ⟨?_, ?_, ?_, ?_, ?_, ?_⟩
  all_goals
    refine extractLsb'_eq_of_getLsbD fun j hj => ?_
    rw [toWord_getLsbD]
    grind

/-- A word's six bytes cover it (30_encoding.md R65). -/
theorem toWord_ofWord (w : FrameWord) : (Frame.ofWord w).toWord = w := by
  refine BitVec.eq_of_getLsbD_eq fun k hk => ?_
  rw [toWord_getLsbD]
  split_ifs <;> exact extractLsb'_getLsbD_sub w (by omega) (by omega)

end Sys2Proof.Machine
end

section
/-! SUPPORT. The statements about the encodings of the operations. -/

namespace Sys2Proof.Machine

/-- Settles O39: each kind of encoding leads back to its operation and is the only one that does, and packing a frame or
its fields loses nothing. -/
theorem decodeEncodeAgree : Obligations.DecodeEncodeAgree :=
  ⟨fun i _ => decodeEncoding_encode i, fun _ _ => eq_encode_of_decodeEncoding,
    fun _ _ => encodeBytes_eq_some_iff.1, fun _ _ => encodeBytes_eq_some_iff.2, fun _ _ => ofMnemonic_eq_some_iff,
    ofWord_toWord, toWord_ofWord, fieldsToWord_ofWord, fieldsOfWord_toWord⟩

/-- Settles O38: a descriptor that is an operation's is one of the two, and six bytes are a frame, which selects none. -/
theorem otherWordsAreRejected : Obligations.OtherWordsAreRejected := by
  refine ⟨fun td hinit hread => ?_, fun _ _ _ _ _ _ => rfl, fun w => ?_⟩
  · cases h : decodeDescriptor config td with
    | reject r => exact ⟨r, rfl⟩
    | instr i =>
      rcases decodeDescriptor_instr h with ⟨_, htd⟩ | ⟨_, htd⟩
      · exact absurd htd hinit
      · exact absurd htd hread
  · have six_bytes : (decode config (tableBytes 6 w)).toOption = none := rfl
    unfold decodeTableWord decodeTableWordAt
    split_ifs
    · exact six_bytes
    · rfl

/-- Settles O37: each word is read by evaluation of the decoders. -/
theorem writtenWordsDecode : Obligations.WrittenWordsDecode := by
  refine ⟨?_, ?_, ?_, ?_, decodeEncoding_encode .joyX, decodeEncoding_encode .accX, decodeEncoding_encode .btnZ⟩
  all_goals decide

/-- Settles O36: the transactions of INIT and READ have one written byte, and their lengths tell the format. -/
theorem emittedDescriptors : Obligations.EmittedDescriptors := by
  refine ⟨by decide, by decide, fun op => ?_⟩
  cases op with
  | init | read => decide

/-- Settles O31: a frame's word at bit `40 - 8i + k` is in byte i, and that byte is read back from there. -/
theorem frameWordLayout : Obligations.FrameWordLayout := by
  refine ⟨fun f i k hk => ?_, fun w i => ?_, by decide⟩
  · rw [toWord_getLsbD]
    fin_cases i <;> grind [frameByte]
  · fin_cases i <;> rfl

end Sys2Proof.Machine
end

section
/-! SUPPORT. The frame bits each decode operation reads (30_encoding.md R67, R76): a masked word is known by the fields
the mask covers, so two frames agree under an operation's mask exactly when its decode function agrees on them. -/

namespace Sys2Proof.Machine

/-! ### Masked words and fields -/

/-- The mask of the field of `n` bits at `lo`. -/
def fieldMask (lo n : Nat) : FrameWord := BitVec.ofNat 48 (2 ^ n - 1) <<< lo

/-- Bit k of a field's mask is 1 exactly in the field. -/
theorem fieldMask_getLsbD (lo n k : Nat) :
    (fieldMask lo n).getLsbD k = decide (k < 48 ∧ lo ≤ k ∧ k < lo + n) := by
  rw [fieldMask, BitVec.getLsbD_shiftLeft, BitVec.getLsbD_ofNat, Nat.testBit_two_pow_sub_one]
  grind

/-- Two words agree under a mask exactly when they agree at each of its bits. -/
theorem and_eq_and_iff {w v m : FrameWord} :
    w &&& m = v &&& m ↔ ∀ k, m.getLsbD k = true → w.getLsbD k = v.getLsbD k := by
  rw [BitVec.eq_of_getLsbD_eq_iff]
  constructor
  · intro h k hk
    simpa [hk] using h k (BitVec.lt_of_getLsbD hk)
  · intro h k _
    rw [BitVec.getLsbD_and, BitVec.getLsbD_and]
    cases hk : m.getLsbD k with
    | false => simp
    | true => rw [h k hk]

/-- Two words agree under two masks together exactly when they agree under each. -/
theorem and_or_eq_iff {w v m n : FrameWord} :
    w &&& (m ||| n) = v &&& (m ||| n) ↔ w &&& m = v &&& m ∧ w &&& n = v &&& n := by
  simp only [and_eq_and_iff, BitVec.getLsbD_or, Bool.or_eq_true, or_imp, forall_and]

/-- Two words agree under a field's mask exactly when the field is the same. -/
theorem and_fieldMask_eq_iff {w v : FrameWord} {lo n : Nat} (hn : lo + n ≤ 48) :
    w &&& fieldMask lo n = v &&& fieldMask lo n ↔ w.extractLsb' lo n = v.extractLsb' lo n := by
  rw [and_eq_and_iff]
  constructor
  · intro h
    refine extractLsb'_eq_of_getLsbD fun j hj => ?_
    have inside : (fieldMask lo n).getLsbD (lo + j) = true := by
      rw [fieldMask_getLsbD]
      exact decide_eq_true ⟨by omega, by omega, by omega⟩
    rw [h _ inside, BitVec.getLsbD_extractLsb']
    simp [hj]
  · intro h k hk
    rw [fieldMask_getLsbD] at hk
    obtain ⟨_, hlo, hhi⟩ := of_decide_eq_true hk
    rw [← extractLsb'_getLsbD_sub w hlo hhi, h, extractLsb'_getLsbD_sub v hlo hhi]

/-- Two ten-bit concatenations are equal exactly when their parts are. -/
theorem accel_append_inj {hi hi' : Byte} {lo lo' : BitVec 2} :
    (hi ++ lo : Accel) = hi' ++ lo' ↔ hi = hi' ∧ lo = lo' := by
  constructor
  · intro h
    have high := congrArg (BitVec.extractLsb' 2 8) h
    have low := congrArg (BitVec.extractLsb' 0 2) h
    rw [BitVec.extractLsb'_append_eq_left, BitVec.extractLsb'_append_eq_left] at high
    rw [BitVec.extractLsb'_append_eq_right, BitVec.extractLsb'_append_eq_right] at low
    exact ⟨high, low⟩
  · rintro ⟨rfl, rfl⟩
    rfl

/-- Two words agree under the masks of a byte and of a low group exactly when the ten-bit concatenations of the two
fields are equal. -/
theorem and_accelMask_eq_iff {w v : FrameWord} {hi lo : Nat} (hhi : hi + 8 ≤ 48) (hlo : lo + 2 ≤ 48) :
    w &&& (fieldMask hi 8 ||| fieldMask lo 2) = v &&& (fieldMask hi 8 ||| fieldMask lo 2) ↔
      (w.extractLsb' hi 8 ++ w.extractLsb' lo 2 : Accel) = v.extractLsb' hi 8 ++ v.extractLsb' lo 2 := by
  rw [and_or_eq_iff, and_fieldMask_eq_iff hhi, and_fieldMask_eq_iff hlo, accel_append_inj]

/-- Two one-bit fields are tested alike against 0 exactly when they are equal. -/
theorem beq_zero_inj {v w : BitVec 1} : (v == 0#1) = (w == 0#1) ↔ v = w := by
  revert v w
  decide

/-! ### The masks of the operations -/

/-- All nine operations. -/
def Instr.all : List Instr := [.init, .read, .joyX, .joyY, .accX, .accY, .accZ, .btnZ, .btnC]

/-- No operation is left out. -/
theorem mem_all (i : Instr) : i ∈ Instr.all := by
  cases i <;> decide

/-- The reads masks of two operations share no bit (30_encoding.md R67). -/
theorem readsMask_disjoint {i j : Instr} (h : i ≠ j) : i.readsMask &&& j.readsMask = 0 := by
  have pairs : ∀ i ∈ Instr.all, ∀ j ∈ Instr.all, i ≠ j → i.readsMask &&& j.readsMask = 0 := by decide
  exact pairs i (mem_all i) j (mem_all j) h

/-- The seven reads masks cover the frame (30_encoding.md R67). -/
theorem readsMask_union :
    Instr.readsMask .joyX ||| Instr.readsMask .joyY ||| Instr.readsMask .accX ||| Instr.readsMask .accY |||
      Instr.readsMask .accZ ||| Instr.readsMask .btnC ||| Instr.readsMask .btnZ = BitVec.allOnes 48 := by decide

/-- Every frame bit is read by a decode operation. -/
theorem exists_readsMask_bit {k : Nat} (hk : k < 48) :
    ∃ i : Instr, i.isDecode = true ∧ i.readsMask.getLsbD k = true := by
  have covered := congrArg (·.getLsbD k) readsMask_union
  simp only [BitVec.getLsbD_or, BitVec.getLsbD_allOnes, hk, decide_true, Bool.or_eq_true] at covered
  rcases covered with (((((h | h) | h) | h) | h) | h) | h
  all_goals exact ⟨_, rfl, h⟩

/-- Only one operation reads a frame bit. -/
theorem eq_of_readsMask_bit {i j : Instr} {k : Nat} (hi : i.readsMask.getLsbD k = true)
    (hj : j.readsMask.getLsbD k = true) : i = j := by
  by_contra hne
  have shared := congrArg (·.getLsbD k) (readsMask_disjoint hne)
  simp [hi, hj] at shared

/-- A decode result is the same on two frames exactly when they agree under the operation's mask (30_encoding.md R67,
R76). -/
theorem decodeResult_eq_iff {i : Instr} (hi : i.isDecode = true) (f g : Frame) :
    decodeResult config i f = decodeResult config i g ↔ f.toWord &&& i.readsMask = g.toWord &&& i.readsMask := by
  cases i with
  | init | read => cases hi
  | joyX =>
    rw [show Instr.readsMask .joyX = fieldMask 40 8 by decide, and_fieldMask_eq_iff (by omega), toWord_extract_b0,
      toWord_extract_b0]
    simp [decodeResult, decJoyX_eq_b0]
  | joyY =>
    rw [show Instr.readsMask .joyY = fieldMask 32 8 by decide, and_fieldMask_eq_iff (by omega), toWord_extract_b1,
      toWord_extract_b1]
    simp [decodeResult, decJoyY_eq_b1]
  | accX =>
    rw [show Instr.readsMask .accX = fieldMask 24 8 ||| fieldMask 2 2 by decide,
      and_accelMask_eq_iff (by omega) (by omega), ← decAccX_eq_wordFields, ← decAccX_eq_wordFields]
    simp [decodeResult]
  | accY =>
    rw [show Instr.readsMask .accY = fieldMask 16 8 ||| fieldMask 4 2 by decide,
      and_accelMask_eq_iff (by omega) (by omega), ← decAccY_eq_wordFields, ← decAccY_eq_wordFields]
    simp [decodeResult]
  | accZ =>
    rw [show Instr.readsMask .accZ = fieldMask 8 8 ||| fieldMask 6 2 by decide,
      and_accelMask_eq_iff (by omega) (by omega), ← decAccZ_eq_wordFields, ← decAccZ_eq_wordFields]
    simp [decodeResult]
  | btnZ =>
    rw [show Instr.readsMask .btnZ = fieldMask 0 1 by decide, and_fieldMask_eq_iff (by omega), ← beq_zero_inj]
    simp [decodeResult, decBtnZ_eq_wordField]
  | btnC =>
    rw [show Instr.readsMask .btnC = fieldMask 1 1 by decide, and_fieldMask_eq_iff (by omega), ← beq_zero_inj]
    simp [decodeResult, decBtnC_eq_wordField]

/-- A word with bit k flipped agrees with the word under a mask exactly when the mask leaves that bit out. -/
theorem xor_bit_and_eq_iff {w m : FrameWord} {k : Nat} (hk : k < 48) :
    (w ^^^ (1#48 <<< k)) &&& m = w &&& m ↔ m.getLsbD k = false := by
  rw [and_eq_and_iff, ← BitVec.twoPow_eq]
  constructor
  · intro h
    by_contra hm
    simpa [BitVec.getLsbD_twoPow, hk] using h k (Bool.eq_true_of_not_eq_false hm)
  · intro h j hj
    have hne : k ≠ j := by
      rintro rfl
      exact absurd (h.symm.trans hj) (by decide)
    simp [BitVec.getLsbD_twoPow, hne]

/-- Settles O33: the masks are compared pair by pair, and their union is evaluated. -/
theorem readsMasksPartitionFrame : Obligations.ReadsMasksPartitionFrame :=
  ⟨fun _ _ => readsMask_disjoint, readsMask_union⟩

/-- Settles O34: each result is a function of the fields its mask covers, and tells any two values of them apart. -/
theorem resultDependsExactlyOnMask : Obligations.ResultDependsExactlyOnMask :=
  fun _ f g hi => decodeResult_eq_iff hi f g

/-- Settles O35: the masks partition the frame, so the bit is in exactly one, and a result depends exactly on its
mask. -/
theorem flippedBitChangesOneResult : Obligations.FlippedBitChangesOneResult := by
  intro f k hk
  obtain ⟨i, hi, hbit⟩ := exists_readsMask_bit hk
  refine ⟨i, hi, hbit, fun j hj => ?_⟩
  rw [ne_eq, decodeResult_eq_iff hj, toWord_ofWord, xor_bit_and_eq_iff hk, Bool.not_eq_false]
  constructor
  · exact fun hjbit => eq_of_readsMask_bit hjbit hbit
  · rintro rfl
    exact hbit

end Sys2Proof.Machine
end

section
/-! SUPPORT. The low group and the range of an accelerometer value (30_encoding.md R70, 42_accelerometer.md R101), and
the status word and the outputs (10_state.md R26, R28). -/

namespace Sys2Proof.Machine

/-- The low group is the same with the mask after the shift (30_encoding.md R70). -/
theorem lowGroup_eq_shift_and (s : Byte) {k : Nat} (hk : k ≤ 6) : lowGroup s (3#8 <<< k) k = (s >>> k) &&& 3#8 := by
  refine BitVec.eq_of_getLsbD_eq fun j _ => ?_
  rw [lowGroup_getLsbD s hk, BitVec.getLsbD_and, BitVec.getLsbD_ushiftRight, three_getLsbD, Bool.and_comm]

/-- Settles O24: the mask of each axis is two bits shifted by its shift. -/
theorem lowGroupExtraction : Obligations.LowGroupExtraction := by
  intro s
  exact ⟨lowGroup_eq_extract s (k := 2) (by omega), lowGroup_eq_shift_and s (k := 2) (by omega),
    lowGroup_eq_extract s (k := 4) (by omega), lowGroup_eq_shift_and s (k := 4) (by omega),
    lowGroup_eq_extract s (k := 6) (by omega), lowGroup_eq_shift_and s (k := 6) (by omega)⟩

/-- A ten-bit value is the concatenation of its high byte and its low group (42_accelerometer.md R101). -/
theorem accel_eq_append (v : Accel) : v.extractLsb' 2 8 ++ v.extractLsb' 0 2 = v := by
  rw [BitVec.extractLsb'_append_extractLsb'_eq_extractLsb' (by omega), BitVec.extractLsb'_eq_self]

/-- Settles O27: the assembly is a concatenation, and a ten-bit value has exactly one pair of parts. -/
theorem accelRangeBijection : Obligations.AccelRangeBijection := by
  refine ⟨fun v => ⟨(v.extractLsb' 2 8, v.extractLsb' 0 2), ?_, ?_⟩, fun _ _ => accel_toNat_le _, rfl, rfl⟩
  · exact (assembleAccel_eq_append ..).trans (accel_eq_append v)
  · rintro ⟨hi, lo⟩ hv
    have parts : hi ++ lo = v.extractLsb' 2 8 ++ v.extractLsb' 0 2 :=
      (assembleAccel_eq_append hi lo).symm.trans (hv.trans (accel_eq_append v).symm)
    obtain ⟨rfl, rfl⟩ := accel_append_inj.1 parts
    rfl

/-- Three Booleans on wires, joined, at their bits (10_state.md R26). -/
theorem wires_getLsbD : ∀ te fv rdy : Bool,
    (boolWire te ++ boolWire fv ++ boolWire rdy : BitVec 3).getLsbD 0 = rdy ∧
    (boolWire te ++ boolWire fv ++ boolWire rdy : BitVec 3).getLsbD 1 = fv ∧
    (boolWire te ++ boolWire fv ++ boolWire rdy : BitVec 3).getLsbD 2 = te := by decide

/-- Settles O40: the three flags are one bit each, and the word has no fourth. -/
theorem statusWordFields : Obligations.StatusWordFields := by
  intro s
  obtain ⟨hrdy, hfv, hte⟩ := wires_getLsbD s.te s.fv s.rdy
  exact ⟨hrdy, hfv, hte, fun k hk => BitVec.getLsbD_of_ge s.status k hk⟩

/-- Settles O41: the outputs are `decodeAll` of the frame held, and without one there are none. -/
theorem outputsAreFunctionsOfFrame : Obligations.OutputsAreFunctionsOfFrame := by
  intro s
  constructor
  · intro h
    rw [State.outputs, h]
    rfl
  · intro h
    rw [State.outputs, h]
    rfl

end Sys2Proof.Machine
end

section
/-! SUPPORT. Admission, the endings of a call and the reset event, said once each, and the statements about the host and
the step (70_reset_and_hazards.md R135, R144, R149). -/

namespace Sys2Proof.Machine

section

variable {c : Config} {s t : State} {op : SeqOp}

/-- An admitted operation makes its call (60_exceptions.md R119). -/
theorem execAt_admitted (hadm : s.admits op) : execAt c op.instr s = .next (s.callTransport c op) := by
  cases op with
  | init => exact sequence_next.2 ⟨hadm.1, hadm.2, rfl⟩
  | read => exact sequence_next.2 ⟨hadm.1, hadm.2, rfl⟩

/-- While an operation waits every operation is refused as busy. -/
theorem execAt_busy (hb : s.busy = some op) (i : Instr) : execAt c i s = .refused .busy := by
  have waits : s.busy.isSome = true := by rw [hb]; rfl
  rcases execAt_forms c i s with ⟨_, he⟩ | ⟨_, he⟩ | ⟨_, _, _, he⟩
  · exact he.trans (sequence_refused.2 (.inl ⟨waits, rfl⟩))
  · exact he.trans (sequence_refused.2 (.inl ⟨waits, rfl⟩))
  · exact he.trans (sample_refused.2 (.inl ⟨waits, rfl⟩))

/-- RESET is applied to an idle block. -/
theorem hostReset_idle (hb : s.busy = none) : s.hostReset = .next s.applyReset := by
  simp [State.hostReset, hb]

/-- RESET is refused while an operation waits. -/
theorem hostReset_busy (hb : s.busy = some op) : s.hostReset = .refused .resetWhileBusy := by
  simp [State.hostReset, hb]

/-- RESET never faults. -/
theorem hostReset_no_fault {f : Fault} : s.hostReset ≠ .fault f := by
  cases hb : s.busy with
  | none => simp [hostReset_idle hb]
  | some op => simp [hostReset_busy hb]

/-- Where the Transport answers, an operation in progress takes the answer. -/
theorem exists_settle (hb : s.busy = some op) (ha : s.transportAnswers op) : ∃ t, s.settle c = some t := by
  cases hs : s.settle c with
  | some t => exact ⟨t, rfl⟩
  | none =>
    rcases settle_none_iff.1 hs with hidle | ⟨op', hb', hu⟩
    · cases hb.symm.trans hidle
    · cases hb.symm.trans hb'
      exact absurd hu ha

/-- Taking an answer ends the operation in progress with one of its two outcomes. -/
theorem settle_ends (hb : s.busy = some op) (hs : s.settle c = some t) :
    t.busy = none ∧ (t.result = some .ok ∨ t.result = some (.transportError op)) := by
  rcases settle_cases hs with ⟨hb', a, rest, _, rfl⟩ | ⟨hb', a, rest, _, rfl⟩
  · cases hb.symm.trans hb'
    cases a with
    | ok => exact ⟨rfl, .inl rfl⟩
    | err => exact ⟨rfl, .inr rfl⟩
  · cases hb.symm.trans hb'
    cases a with
    | ok b => exact ⟨rfl, .inl rfl⟩
    | err => exact ⟨rfl, .inr rfl⟩

/-- A call that finds its answer is the call going out and the answer taken. -/
theorem callTransport_of_settle (hs : (s.startCall c op).settle c = some t) : s.callTransport c op = t := by
  rw [State.callTransport, hs, Option.getD_some]

/-- A step is a fault exactly when an operation waits unanswered and the host does nothing (70_reset_and_hazards.md
R144). -/
theorem stepAt_fault_iff {f : Fault} :
    stepAt c s = .fault f ↔
      ∃ op, f = .awaitingTransport op ∧ s.busy = some op ∧ s.unanswered op ∧ s.host = [] := by
  constructor
  · intro h
    cases hs : s.settle c with
    | some t => cases (stepAt_settle hs).symm.trans h
    | none =>
      match hh : s.host with
      | .issue i :: rest => exact absurd ((stepAt_issue hs hh).symm.trans h) execAt_no_fault
      | .reset :: rest => exact absurd ((stepAt_reset hs hh).symm.trans h) hostReset_no_fault
      | [] =>
        rcases settle_none_iff.1 hs with hb | ⟨op, hb, hu⟩
        · cases (stepAt_idle hb hh).symm.trans h
        · cases (stepAt_stuck hb hu hh).symm.trans h
          exact ⟨op, rfl, hb, hu, rfl⟩
  · rintro ⟨op, rfl, hb, hu, hh⟩
    exact stepAt_stuck hb hu hh

/-- A call at the head of the list is the last of the trace. -/
theorem trace_of_bus_cons {call : Call} (h : t.bus = call :: s.bus) : t.trace = s.trace ++ [call.transaction] := by
  simp [State.trace, h]

/-- An unanswered call puts the operation's own transaction on the bus. -/
@[simp] theorem openCall_transaction (c : Config) (op : SeqOp) : (op.openCall c).transaction = op.transaction c := by
  cases op <;> rfl

end

/-- Settles O1: each is a field of the reset state. -/
theorem resetClearsFlags : Obligations.ResetClearsFlags := ⟨rfl, rfl, rfl, rfl, rfl, rfl⟩

/-- Settles O2: an idle block has no answer to take, so the step applies RESET. -/
theorem resetEventOnIdleBlock : Obligations.ResetEventOnIdleBlock := by
  intro s rest hidle hhost
  have applied : step s = .next (State.applyReset { s with host := rest }) :=
    (step_reset (settle_idle hidle) hhost).trans (hostReset_idle hidle)
  exact ⟨_, applied, rfl, rfl, rfl, rfl, rfl, rfl, rfl, rfl⟩

/-- Settles O3: with no answer to take the step presents RESET to a busy block. -/
theorem resetDuringOperationIsRefused : Obligations.ResetDuringOperationIsRefused := by
  intro s op rest hb hu hhost
  exact (step_reset (settle_unanswered hb hu) hhost).trans (hostReset_busy hb)

/-- Settles O4: an idle block has no answer to take. -/
theorem stepRunsIssuedOperation : Obligations.StepRunsIssuedOperation :=
  fun _ _ _ hidle hhost => step_issue (settle_idle hidle) hhost

/-- A table word that the decoder reads as `i` presents `i`. -/
theorem withFetchWord_eq_present {s : State} {nbits w : Nat} {i : Instr} (h : decodeTableWord nbits w = some i) :
    s.withFetchWord nbits w = s.present i := by
  rw [State.withFetchWord, State.presentWord, h]

/-- Settles O5: the placed word is the operation presented, which the step of an idle block runs. -/
theorem stepRunsDecodedWord : Obligations.StepRunsDecodedWord := by
  intro s nbits w i hidle hw
  rw [withFetchWord_eq_present hw]
  exact stepRunsIssuedOperation (s.present i) i s.host hidle rfl

/-- Settles O6: an idle block without an event steps to itself. -/
theorem finishedBlockStays : Obligations.FinishedBlockStays := fun _ ⟨hidle, hhost⟩ => step_idle hidle hhost

/-- Settles O7, the step at the source's constants. -/
theorem stuckExactlyWhenAwaiting : Obligations.StuckExactlyWhenAwaiting := fun _ _ => stepAt_fault_iff (c := config)

/-- Settles O8: the call goes out and nothing else happens, and the block is busy. -/
theorem unansweredOperationIsStuck : Obligations.UnansweredOperationIsStuck := by
  intro s op hadm hu
  have goes_out : exec op.instr s = .next (s.startCall config op) :=
    (execAt_admitted hadm).trans (congrArg _ (callTransport_unanswered hu))
  have still_unanswered : (s.startCall config op).unanswered op := by
    cases op with
    | init | read => exact hu
  refine ⟨_, goes_out, rfl, ?_, execAt_busy rfl, hostReset_busy rfl, step_stuck rfl still_unanswered⟩
  rw [trace_of_bus_cons (State.startCall_bus ..), openCall_transaction]

/-- Settles O9: where the answer is there it is taken, at once by an operation that goes out, and by the next step for an
operation in progress. -/
theorem answeredOperationEnds : Obligations.AnsweredOperationEnds := by
  constructor
  · intro s op hadm ha
    have answered : (s.startCall config op).transportAnswers op := by
      cases op with
      | init | read => exact ha
    obtain ⟨t, ht⟩ := exists_settle (c := config) (State.startCall_busy config op s) answered
    have ends : exec op.instr s = .next t := (execAt_admitted hadm).trans (congrArg _ (callTransport_of_settle ht))
    exact ⟨t, ends, settle_ends rfl ht⟩
  · intro s op hb ha
    obtain ⟨t, ht⟩ := exists_settle (c := config) hb ha
    exact ⟨t, step_settle ht, settle_ends hb ht⟩

/-- Settles O57: the fixed names are defined as the model at `config`, whose fields are the source's values. -/
theorem modelIsOpenInItsConstants : Obligations.ModelIsOpenInItsConstants :=
  ⟨exec_eq, step_eq, core_eq, rfl, rfl, rfl, rfl, rfl⟩

end Sys2Proof.Machine
end

section
/-! SUPPORT. INIT and READ at any constants, and the statements that are their instances at the source's
(40_sequencer.md R88, R89, 60_exceptions.md R120, R122). -/

namespace Sys2Proof.Machine

/-- Settles O58: an admitted operation makes its call, which ends on the answer where there is one. -/
theorem sequencerAtAnyConstants : Obligations.SequencerAtAnyConstants := by
  intro c s hidle
  have refused_init (hr : s.rdy = true) : execAt c .init s = .refused .initWhenReady :=
    sequence_refused.2 (.inr ⟨hidle, by simp [hr], rfl⟩)
  have refused_read (hr : s.rdy = false) : execAt c .read s = .refused .readBeforeInit :=
    sequence_refused.2 (.inr ⟨hidle, by simp [hr], rfl⟩)
  refine ⟨refused_init, refused_read, fun hr => ?_, fun hr => ?_⟩
  · have admitted : execAt c .init s = .next (s.callTransport c .init) := execAt_admitted (op := .init) ⟨hidle, hr⟩
    refine ⟨fun rest ha => ?_, fun rest ha => ?_, fun ha => ?_⟩
    · rw [admitted, callTransport_init ha]; rfl
    · rw [admitted, callTransport_init ha]; rfl
    · rw [admitted, callTransport_unanswered (op := .init) ha]; rfl
  · have admitted : execAt c .read s = .next (s.callTransport c .read) := execAt_admitted (op := .read) ⟨hidle, hr⟩
    refine ⟨fun b rest ha => ?_, fun rest ha => ?_, fun ha => ?_⟩
    · rw [admitted, callTransport_read ha]; rfl
    · rw [admitted, callTransport_read ha]; rfl
    · rw [admitted, callTransport_unanswered (op := .read) ha]; rfl

/-- Settles O10, INIT at the source's constants. -/
theorem initHandshake : Obligations.InitHandshake := by
  refine ⟨fun s hidle => ?_, by decide⟩
  obtain ⟨hready, _, hnotReady, _⟩ := sequencerAtAnyConstants config s hidle
  exact ⟨hready, hnotReady⟩

/-- Settles O11, READ at the source's constants. -/
theorem readFetchesFrame : Obligations.ReadFetchesFrame := by
  refine ⟨fun s hidle => ?_, by decide⟩
  obtain ⟨_, hnotReady, _, hready⟩ := sequencerAtAnyConstants config s hidle
  exact ⟨hnotReady, hready⟩

/-- Settles O12: the step of a busy block takes the answer that has come. -/
theorem lateAnswerEndsOperation : Obligations.LateAnswerEndsOperation := by
  intro s
  refine ⟨fun hb => ⟨fun rest ha => ?_, fun rest ha => ?_⟩, fun hb => ⟨fun b rest ha => ?_, fun rest ha => ?_⟩⟩
  · exact step_settle (settle_init hb ha)
  · exact step_settle (settle_init hb ha)
  · exact step_settle (settle_read hb ha)
  · exact step_settle (settle_read hb ha)

/-- Settles O13: the call takes the answer `Err`, which leaves RDY as it was and the block idle. -/
theorem transportErrorIsPrecise : Obligations.TransportErrorIsPrecise := by
  intro s op hadm herr
  have again {t : State} (ht : t.admits op) : ∃ u, exec op.instr t = .next u := ⟨_, execAt_admitted ht⟩
  cases op with
  | init =>
    obtain ⟨hidle, hr⟩ := hadm
    obtain ⟨rest, ha⟩ := List.head?_eq_some_iff.1 herr
    obtain ⟨_, hcall⟩ := initHandshake.1 s hidle
    obtain ⟨_, hfail, _⟩ := hcall hr
    refine ⟨_, hfail rest ha, rfl, rfl, rfl, rfl, rfl, rfl, ?_, again ⟨rfl, hr⟩⟩
    exact trace_of_bus_cons (call := .write (SeqOp.transaction config .init) (some .err)) rfl
  | read =>
    obtain ⟨hidle, hr⟩ := hadm
    obtain ⟨rest, ha⟩ := List.head?_eq_some_iff.1 herr
    obtain ⟨_, hcall⟩ := readFetchesFrame.1 s hidle
    obtain ⟨_, hfail, _⟩ := hcall hr
    refine ⟨_, hfail rest ha, rfl, rfl, rfl, rfl, rfl, rfl, ?_, again ⟨rfl, hr⟩⟩
    exact trace_of_bus_cons (call := .writeThenRead (SeqOp.transaction config .read) (some .err)) rfl

/-- Settles O14: INIT on `Err` leaves the block idle and not ready, so INIT on `Ok` follows. -/
theorem failedInitMayBeRetried : Obligations.FailedInitMayBeRetried := by
  intro s rest hidle hr ha
  have attempt (s : State) (hidle : s.busy = none) (hr : s.rdy = false) := (initHandshake.1 s hidle).2 hr
  obtain ⟨_, failed, _⟩ := attempt s hidle hr
  obtain ⟨succeeded, _⟩ := attempt { s with
    te := true, busy := none, writeAnswers := .ok :: rest, result := some (.transportError .init),
    bus := .write ⟨0x52, [0x40], 0⟩ (some .err) :: s.bus } rfl hr
  refine ⟨_, _, failed _ ha, hr, rfl, succeeded rest rfl, rfl, rfl, ?_⟩
  simp [State.trace, Call.transaction]

end Sys2Proof.Machine
end

section
/-! SUPPORT. The frames of INIT and READ, and what a step can do to RDY, to FV and to the frame held
(10_state.md R21, R23, R24, 20_memory.md R50). -/

namespace Sys2Proof.Machine

section

variable {c : Config} {s t : State}

/-! ### INIT and READ -/

/-- What an admitted INIT leaves. -/
theorem exec_init_next (h : exec .init s = .next t) :
    s.busy = none ∧ s.rdy = false ∧ t = s.callTransport config .init := sequence_next.1 h

/-- What an admitted READ leaves. -/
theorem exec_read_next (h : exec .read s = .next t) :
    s.busy = none ∧ s.rdy = true ∧ t = s.callTransport config .read := sequence_next.1 h

/-- INIT writes neither `x` nor FV, takes one write answer at most, and sets RDY exactly on `Ok`. -/
theorem callTransport_init_frame (c : Config) (hr : s.rdy = false) (ht : t = s.callTransport c .init) :
    t.x = s.x ∧ t.fv = s.fv ∧ t.readAnswers = s.readAnswers ∧ t.host = s.host ∧ t.resets = s.resets ∧
    t.bus.tail = s.bus ∧ t.writeAnswers = s.writeAnswers.tail ∧
    (t.rdy = true ↔ s.writeAnswers.head? = some .ok) := by
  match ha : s.writeAnswers with
  | [] =>
    rw [callTransport_unanswered (op := .init) ha] at ht
    subst ht
    exact ⟨rfl, rfl, rfl, rfl, rfl, rfl, ha, by simp [hr]⟩
  | .ok :: rest =>
    rw [callTransport_init ha, commitInit_ok] at ht
    subst ht
    exact ⟨rfl, rfl, rfl, rfl, rfl, rfl, rfl, by simp⟩
  | .err :: rest =>
    rw [callTransport_init ha, commitInit_err] at ht
    subst ht
    exact ⟨rfl, rfl, rfl, rfl, rfl, rfl, rfl, by simp [hr]⟩

/-- READ writes neither RDY nor the write answers, takes one READ answer at most, and replaces the frame held exactly on
`Ok` (92_eei_decisions.md D8). -/
theorem callTransport_read_frame (c : Config) (ht : t = s.callTransport c .read) :
    t.rdy = s.rdy ∧ t.writeAnswers = s.writeAnswers ∧ t.host = s.host ∧ t.resets = s.resets ∧ t.bus.tail = s.bus ∧
    t.readAnswers = s.readAnswers.tail ∧
    ((∀ b, s.readAnswers.head? ≠ some (.ok b)) → t.x = s.x ∧ t.fv = s.fv) ∧
    (∀ b, s.readAnswers.head? = some (.ok b) → t.x = b ∧ t.fv = true) := by
  match ha : s.readAnswers with
  | [] =>
    rw [callTransport_unanswered (op := .read) ha] at ht
    subst ht
    exact ⟨rfl, rfl, rfl, rfl, rfl, ha, fun _ => ⟨rfl, rfl⟩, nofun⟩
  | .ok b :: rest =>
    rw [callTransport_read ha, commitRead_ok] at ht
    subst ht
    exact ⟨rfl, rfl, rfl, rfl, rfl, rfl, fun hb => absurd rfl (hb b), fun _ hb => by cases hb; exact ⟨rfl, rfl⟩⟩
  | .err :: rest =>
    rw [callTransport_read ha, commitRead_err] at ht
    subst ht
    exact ⟨rfl, rfl, rfl, rfl, rfl, rfl, fun _ => ⟨rfl, rfl⟩, nofun⟩

/-! ### RDY, FV and the frame held -/

/-- The frame register file and FV are as they were, or hold one frame that the Transport answered (20_memory.md R50). -/
def frameKeptOrTaken (s t : State) : Prop :=
  (t.x = s.x ∧ t.fv = s.fv) ∨ ∃ b rest, s.readAnswers = .ok b :: rest ∧ t.readAnswers = rest ∧ t.x = b ∧ t.fv = true

/-- Taking an answer does not clear RDY, and keeps the frame held or takes the one answered. -/
theorem settle_keeps (hs : s.settle c = some t) : (s.rdy = true → t.rdy = true) ∧ frameKeptOrTaken s t := by
  rcases settle_cases hs with ⟨_, a, rest, _, rfl⟩ | ⟨_, a, rest, ha, rfl⟩
  · cases a with
    | ok => exact ⟨fun _ => rfl, .inl ⟨rfl, rfl⟩⟩
    | err => exact ⟨id, .inl ⟨rfl, rfl⟩⟩
  · cases a with
    | ok b => exact ⟨id, .inr ⟨b, rest, ha, rfl, rfl, rfl⟩⟩
    | err => exact ⟨id, .inl ⟨rfl, rfl⟩⟩

/-- A call of the Transport does not clear RDY, and keeps the frame held or takes the one answered. -/
theorem callTransport_keeps (c : Config) (op : SeqOp) (s : State) :
    (s.rdy = true → (s.callTransport c op).rdy = true) ∧ frameKeptOrTaken s (s.callTransport c op) := by
  cases hs : (s.startCall c op).settle c with
  | some t =>
    have kept := settle_keeps hs
    rw [callTransport_of_settle hs]
    exact kept
  | none =>
    rw [State.callTransport, hs]
    exact ⟨id, .inl ⟨rfl, rfl⟩⟩

/-- An operation does not clear RDY, and keeps the frame held or takes the one answered. -/
theorem execAt_keeps {i : Instr} (h : execAt c i s = .next t) :
    (s.rdy = true → t.rdy = true) ∧ frameKeptOrTaken s t := by
  obtain ⟨_, ⟨_, _, rfl⟩ | ⟨_, _, rfl⟩ | ⟨_, _, _, _, rfl⟩⟩ := execAt_next_cases h
  · exact callTransport_keeps c .init s
  · exact callTransport_keeps c .read s
  · exact ⟨id, .inl ⟨rfl, rfl⟩⟩

/-- A step other than RESET does not clear RDY, and keeps the frame held or takes the one answered. -/
theorem stepAt_keeps (h : stepAt c s = .next t) :
    (s.busy = none ∧ ∃ rest, s.host = .reset :: rest ∧ t = State.applyReset { s with host := rest }) ∨
    ((s.rdy = true → t.rdy = true) ∧ frameKeptOrTaken s t) := by
  rcases stepAt_next_cases h with hs | ⟨_, i, rest, _, he⟩ | hreset | ⟨_, _, rfl⟩
  · exact .inr (settle_keeps hs)
  · have kept := execAt_keeps he
    exact .inr kept
  · exact .inl hreset
  · exact .inr ⟨id, .inl ⟨rfl, rfl⟩⟩

end

/-! ### The statements -/

/-- Settles O42: an INIT that answers a next state was admitted, so it made its call. -/
theorem initFrame : Obligations.InitFrame := by
  intro s t h
  obtain ⟨_, hr, ht⟩ := exec_init_next h
  obtain ⟨hx, hrest⟩ := callTransport_init_frame config hr ht
  exact ⟨fun _ => by rw [hx], hrest⟩

/-- Settles O43: a READ that answers a next state was admitted, so it made its call. -/
theorem readFrame : Obligations.ReadFrame := by
  intro s t h
  obtain ⟨_, _, ht⟩ := exec_read_next h
  obtain ⟨hrdy, hwrites, hhost, hresets, hbus, hreads, hkept, htaken⟩ := callTransport_read_frame config ht
  refine ⟨hrdy, hwrites, hhost, hresets, hbus, hreads, fun hno => ?_, fun b hb => ?_⟩
  · obtain ⟨hx, hfv⟩ := hkept hno
    exact ⟨fun _ => by rw [hx], hfv⟩
  · obtain ⟨hx, hfv⟩ := htaken b hb
    exact ⟨fun _ => by rw [hx], hfv⟩

/-- Settles O44: INIT writes no frame and READ no RDY, both only set their flag, and a decode operation writes nothing of
the four. -/
theorem whoWritesWhat : Obligations.WhoWritesWhat := by
  intro i s t h
  obtain ⟨_, ⟨rfl, hr, ht⟩ | ⟨rfl, _, ht⟩ | ⟨_, _, _, _, rfl⟩⟩ := exec_next_cases h
  · obtain ⟨hx, hfv, _⟩ := callTransport_init_frame config hr ht
    refine ⟨fun hne => absurd hx hne, fun hne => ⟨rfl, ?_⟩, fun hne => absurd hfv hne, fun _ => .inl rfl⟩
    exact Bool.eq_true_of_not_eq_false fun hf => hne (hf.trans hr.symm)
  · obtain ⟨hrdy, _⟩ := callTransport_read_frame config ht
    refine ⟨fun _ => rfl, fun hne => absurd hrdy hne, fun hne => ⟨rfl, ?_⟩, fun _ => .inr rfl⟩
    obtain ⟨_, hfv⟩ | ⟨_, _, _, _, _, hfv⟩ := ht ▸ (callTransport_keeps config .read s).2
    · exact absurd hfv hne
    · exact hfv
  · exact ⟨(absurd rfl ·), (absurd rfl ·), (absurd rfl ·), (absurd rfl ·)⟩

/-- Settles O45: every step other than RESET keeps RDY set, and keeps FV or sets it. -/
theorem onlyResetClearsReadyAndValid : Obligations.OnlyResetClearsReadyAndValid := by
  intro s t h hcleared
  rcases stepAt_keeps (c := config) h with ⟨hidle, rest, hhost, _⟩ | ⟨hrdy, hframe⟩
  · exact ⟨hidle, rest, hhost⟩
  · exfalso
    rcases hcleared with ⟨hset, hclear⟩ | ⟨hset, hclear⟩
    · cases hclear.symm.trans (hrdy hset)
    · rcases hframe with ⟨_, hfv⟩ | ⟨_, _, _, _, _, hfv⟩
      · cases hclear.symm.trans (hfv.trans hset)
      · cases hclear.symm.trans hfv

/-- Settles O49: after RESET no frame is held, and every other step keeps the frame held or takes the one answered. -/
theorem frameIsReplacedWhole : Obligations.FrameIsReplacedWhole := by
  intro s t h hheld
  refine ⟨t.x, rfl, by rw [State.outputs, hheld]; rfl, ?_⟩
  rcases stepAt_keeps (c := config) h with ⟨_, rest, _, rfl⟩ | ⟨_, hframe⟩
  · cases hheld
  · rcases hframe with ⟨hx, hfv⟩ | ⟨b, rest, ha, hrest, hx, _⟩
    · exact .inl ⟨hfv.symm.trans hheld, hx⟩
    · exact .inr ⟨rest, hx ▸ ha, hrest⟩

end Sys2Proof.Machine
end

section
/-! SUPPORT. Which operation is refused, when and by which name (60_exceptions.md R117). -/

namespace Sys2Proof.Machine

/-- Settles O46: each operation is one of the two shared forms, whose refusals are known. -/
theorem refusedExactlyWhen : Obligations.RefusedExactlyWhen := by
  refine fun i s => ⟨fun r => ?_, fun _ => exec_no_fault⟩
  rcases exec_forms i s with ⟨rfl, he⟩ | ⟨rfl, he⟩ | ⟨hi, _, _, he⟩
  · simp [he, sequence_refused, Instr.isDecode]
  · simp [he, sequence_refused, Instr.isDecode]
  · have hinit : i ≠ .init := by rintro rfl; cases hi
    have hread : i ≠ .read := by rintro rfl; cases hi
    simp [he, sample_refused, hi, hinit, hread]

end Sys2Proof.Machine
end

section
/-! SUPPORT. The history of calls and what it says of the block: the one transaction of each operation (20_memory.md
R59), and the frame the decode operations show (R60, R63, 70_reset_and_hazards.md R139). -/

namespace Sys2Proof.Machine

/-- A decode operation is no sequencer operation. -/
theorem seqOpOf_decode {i : Instr} (hi : i.isDecode = true) : seqOpOf i = none := by
  cases i with
  | init | read => cases hi
  | joyX | joyY | accX | accY | accZ | btnZ | btnC => rfl

/-- A call of the Transport adds the operation's transaction at the end of the trace (20_memory.md R59). -/
theorem callTransport_trace (c : Config) (op : SeqOp) (s : State) :
    (s.callTransport c op).trace = s.trace ++ [op.transaction c] := by
  obtain ⟨call, hcall, hbus⟩ := callTransport_bus c op s
  rw [trace_of_bus_cons hbus, hcall]

/-- Where the history is what the state says, the answer to a call leaves the trace as it was (20_memory.md R59). -/
theorem settle_trace {c : Config} {s t : State} (hinv : HistoryInv c s) (hs : s.settle c = some t) :
    t.trace = s.trace := by
  have hlegal := hinv.legal
  rcases settle_cases hs with ⟨hb, a, rest, _, rfl⟩ | ⟨hb, a, rest, _, rfl⟩
  · obtain ⟨tx, earlier, hbus⟩ := exists_of_openOperation_init (hinv.busy ▸ hb)
    obtain ⟨rfl, _⟩ := legalBus_write.1 (hbus ▸ hlegal)
    simp [State.trace, hbus, Call.transaction]
  · obtain ⟨tx, earlier, hbus⟩ := exists_of_openOperation_read (hinv.busy ▸ hb)
    obtain ⟨rfl, _⟩ := legalBus_read.1 (hbus ▸ hlegal)
    simp [State.trace, hbus, Call.transaction]

/-- Settles O47: a call adds one transaction, a decode operation none, and a busy block can only take its answer. -/
theorem oneTransactionPerOperation : Obligations.OneTransactionPerOperation := by
  constructor
  · intro i s t h
    obtain ⟨_, ⟨rfl, _, rfl⟩ | ⟨rfl, _, rfl⟩ | ⟨hi, _, _, _, rfl⟩⟩ := exec_next_cases h
    · exact callTransport_trace config .init s
    · exact callTransport_trace config .read s
    · rw [seqOpOf_decode hi]
      exact (List.append_nil _).symm
  · intro s t hinv hbusy h
    have not_idle : s.busy ≠ none := fun hidle => by simp [hidle] at hbusy
    rcases step_next_cases h with hs | ⟨_, i, rest, _, he⟩ | ⟨hidle, _⟩ | ⟨hidle, _⟩
    · exact settle_trace hinv hs
    · exact absurd (exec_next_cases he).1 not_idle
    · exact absurd hidle not_idle
    · exact absurd hidle not_idle

/-- A READ ended `Ok` only after an INIT did (40_sequencer.md R87). -/
theorem initEndedOk_of_lastGoodFrame {c : Config} {l : List Call} (hlegal : legalBus c l = true)
    (hframe : (lastGoodFrame l).isSome = true) : initEndedOk l = true := by
  induction l with
  | nil => cases hframe
  | cons call rest ih =>
    cases call with
    | write tx a =>
      obtain ⟨_, hnone, _, hrest⟩ := legalBus_write.1 hlegal
      cases hnone.symm.trans (ih hrest hframe)
    | writeThenRead tx a =>
      obtain ⟨_, hinit, _, _⟩ := legalBus_read.1 hlegal
      exact hinit

/-- There is a last good frame exactly when some READ ended `Ok` (10_state.md R24). -/
theorem lastGoodFrame_isSome_iff {l : List Call} :
    (lastGoodFrame l).isSome = true ↔ ∃ tx b, Call.writeThenRead tx (some (.ok b)) ∈ l := by
  induction l with
  | nil => simp [lastGoodFrame]
  | cons call rest ih =>
    match call with
    | .write tx a => simp [ih]
    | .writeThenRead tx (some (.ok b)) => simpa using ⟨tx, b, .inl ⟨rfl, rfl⟩⟩
    | .writeThenRead tx (some .err) => simp [ih]
    | .writeThenRead tx none => simp [ih]

/-- Settles O55: the flags are what the history says, and the history has a good frame only after an INIT ended `Ok`. -/
theorem frameValidImpliesReady : Obligations.FrameValidImpliesReady := by
  intro s hinv
  rw [hinv.fv, hinv.rdy]
  exact ⟨initEndedOk_of_lastGoodFrame hinv.legal, lastGoodFrame_isSome_iff⟩

/-! ### What the decode operations show -/

/-- The outputs are a function of `x` and FV (10_state.md R28). -/
theorem outputs_congr {s t : State} (c : Config) (hx : t.x = s.x) (hfv : t.fv = s.fv) : t.outputs c = s.outputs c := by
  rw [State.outputs, State.outputs, hx, hfv]

/-- With a frame held the outputs are the decode functions of it (10_state.md R28). -/
theorem outputs_held {s : State} {b : Frame} (c : Config) (hx : s.x = b) (hfv : s.fv = true) :
    s.outputs c = some (decodeAll c b) := by
  rw [State.outputs, if_pos hfv, hx]

/-- On an idle block a decode operation hands over its function of the frame held (41_joystick.md R95). -/
theorem exec_decode_held {i : Instr} {s : State} {b : Frame} (hi : i.isDecode = true) (hidle : s.busy = none)
    (hfv : s.fv = true) (hx : s.x = b) : exec i s = .next { s with result := decodeResult config i b } := by
  subst hx
  obtain ⟨r, hr⟩ := exists_decodeResult config hi s.x
  exact (exec_decode_next hi).2 ⟨hidle, hfv, r, hr, by rw [hr]⟩

/-- A busy READ whose answer has come ends on it in the next step. -/
theorem step_read_answered {s t : State} {a : ReadAnswer} (hb : s.busy = some .read) (h : step s = .next t)
    (ha : s.readAnswers.head? = some a) :
    t = State.commitRead config a { s with readAnswers := s.readAnswers.tail } := by
  obtain ⟨rest, hrest⟩ := List.head?_eq_some_iff.1 ha
  rw [step_settle (settle_read hb hrest)] at h
  cases h
  rw [hrest]
  rfl

/-- A READ that ends `Ok` leaves the block idle with the new frame held, whether the answer comes at once or later. -/
theorem read_ok_holds {s t : State} {b : Frame}
    (h : exec .read s = .next t ∨ (s.busy = some .read ∧ step s = .next t))
    (ha : s.readAnswers.head? = some (.ok b)) : t.busy = none ∧ t.fv = true ∧ t.x = b := by
  rcases h with h | ⟨hb, h⟩
  · obtain ⟨_, _, rfl⟩ := exec_read_next h
    obtain ⟨rest, hrest⟩ := List.head?_eq_some_iff.1 ha
    rw [callTransport_read hrest]
    exact ⟨rfl, rfl, rfl⟩
  · rw [step_read_answered hb h ha]
    exact ⟨rfl, rfl, rfl⟩

/-- Settles O50: the history invariant says what `x` holds, and a READ that ends in an error writes neither `x` nor FV. -/
theorem decodersShowLastGoodFrame : Obligations.DecodersShowLastGoodFrame := by
  refine ⟨fun i s hinv hi hidle hfv => ?_, fun s t h ha => ?_, fun s t hb h ha => ?_⟩
  · obtain ⟨f, hf⟩ := Option.isSome_iff_exists.1 (hinv.fv.symm.trans hfv)
    exact ⟨f, hf, exec_decode_held hi hidle hfv (hinv.x f hf)⟩
  · obtain ⟨_, _, ht⟩ := exec_read_next h
    obtain ⟨_, _, _, _, _, _, kept, _⟩ := callTransport_read_frame config ht
    obtain ⟨hx, hfv⟩ := kept fun b hb => by cases ha.symm.trans hb
    exact ⟨hx, outputs_congr config hx hfv⟩
  · rw [step_read_answered hb h ha]
    exact ⟨rfl, rfl⟩

/-- Settles O51: after either ending the block is idle and holds the new frame. -/
theorem newFrameIsSeenAtOnce : Obligations.NewFrameIsSeenAtOnce := by
  intro i s t b hi h ha
  obtain ⟨hidle, hfv, hx⟩ := read_ok_holds h ha
  exact ⟨exec_decode_held hi hidle hfv hx, outputs_held config hx hfv⟩

end Sys2Proof.Machine
end
